-- ==== Sys2Proof/Word.lean ====
section
/-! DEFINITION. The word types of the block (R7, R102): bytes, 16-bit addresses, 32-bit register values. -/

namespace Sys2Proof

/-- One byte of a buffer, a frame or the host port (R74). -/
abbrev Byte := BitVec 8

/-- A 16-bit field: PAN id, short address, register address, frame control (R7). -/
abbrev Half := BitVec 16

/-- A 32-bit register value, carried without interpretation (R113). -/
abbrev Value := BitVec 32

end Sys2Proof
end

