-- ==== Sys2Proof/Config.lean ====
section
/-! DEFINITION. The implementation parameters of R6, what the chip agent shows on the chip port (R47, R160), and the
free values: constants without a body, of which nothing can be proved (R330, R78, 93_implementation_defined.md). -/

namespace Sys2Proof

/-! ## Fixed parameters (R6) -/

def radioMtu : Nat := 127
def linkHdr : Nat := 9
def linkTrl : Nat := 2
def linkMtu : Nat := radioMtu - linkHdr - linkTrl
def appHdr : Nat := 2
def appTrl : Nat := 0
def addrRec : Nat := 2
def pairRec : Nat := 6
def txTimeoutMs : Nat := 50
/-- Size of TXBUF (R70). -/
def txSize : Nat := 127
/-- Size of RXBUF (R71). -/
def rxSize : Nat := 128

/-! ## Open parameters (R6) -/

/-- The classes of a chip status code (R162). -/
inductive StatusClass where
  | busy | idle | listen | send | other
deriving DecidableEq, Repr, Inhabited

/-- The open parameters of R6, as the argument the model takes. No step changes them. The chip's code widths are not in
the source (D12 to D14), so a code is a natural number; a parameter that R6 calls a function or a predicate is the finite
table of its values (log 12). N_HANDLERS and MAX_UPCALL_DEPTH are at least 1 by construction. -/
structure Params where
  /-- FC_VERSION, default 0 (D4). -/
  fcVersion : BitVec 2
  /-- MS_WIDTH, default 32 (D30). -/
  msWidth : Nat
  /-- N_HANDLERS less 1 (D22). -/
  handlersBeyondOne : Nat
  /-- MAX_UPCALL_DEPTH less 1 (D20). -/
  upcallsBeyondOne : Nat
  /-- `status_class`; a code not listed is OTHER (R162, D12). -/
  statusClasses : List (Nat × StatusClass)
  /-- CMD_LISTEN, CMD_SEND, CMD_RECOVER (R163, D13). -/
  cmdListen : Nat
  cmdSend : Nat
  cmdRecover : Nat
  /-- The interrupt-status values for which `irq_rx_done` holds (D14). -/
  rxDone : List Nat
  /-- The interrupt-status values for which `irq_tx_done` holds (D14). -/
  txDone : List Nat
  /-- TRAC_SUCCESS (D38). -/
  tracSuccess : Nat
deriving DecidableEq, Repr, Inhabited

/-! ## The chip agent's state, as the chip port shows it (R47, R160) -/

/-- The chip's one frame buffer (R47, D43). -/
inductive FrameBuffer where
  /-- No frame the block may rely on: never filled, or the hold released (R161 CH2). -/
  | empty
  /-- A received frame not yet read: the chip holds it (R47). -/
  | received (len : Byte) (bytes : List Byte)
  /-- The frame `ChipWriteFrame` put there for transmission (R160). -/
  | written (len : Byte) (bytes : List Byte)
deriving DecidableEq, Repr, Inhabited

/-- The chip's registers (R47) and its interrupt-pending line (R160). -/
structure ChipRegs where
  status : Nat
  irqStatus : Nat
  irqLine : Bool
  trac : Nat
deriving DecidableEq, Repr, Inhabited

/-- The chip agent. The last three fields record what the block put on the chip port (log 18). -/
structure Chip where
  regs : ChipRegs
  buffer : FrameBuffer
  /-- The last command `ChipCommand` wrote. -/
  command : Option Nat
  /-- How often `ChipPulseTrigger` was performed. -/
  triggers : Nat
  /-- How often `ChipPulseReset` was performed. -/
  resets : Nat
deriving DecidableEq, Repr, Inhabited

namespace Config

/-! ## Free values (log 6, 10, 11, 19) -/

/-- An unspecified byte: draw `n`, index `i` (R78, R71). -/
opaque freeByte (n i : Nat) : Byte

/-- An unspecified 16-bit register at reset: draw `n` (R331). -/
opaque freeHalf (n : Nat) : Half

/-- The length of an unspecified frame, at most 127 by its width: draw `n` (R347, R161 CH3). -/
opaque freeLen (n : Nat) : BitVec 7

/-- The chip's registers after its reset line was pulsed: draw `n` (R181, D35). -/
opaque freeRegs (n : Nat) : ChipRegs

/-- The chip at power-on: the chip agent's own (R330). -/
opaque powerOnChip : Chip

/-- The clock at power-on (R330, R310). -/
opaque powerOnClock : Nat

/-- The open parameters that have no default (R6). -/
opaque openParams : Params

/-- The parameters of the machine at power-on: the two defaults R6 states, the rest open. -/
def params : Params := { openParams with fcVersion := 0, msWidth := 32 }

end Config

end Sys2Proof
end

