-- ==== Sys2Proof/Syntax.lean ====
section
/-! DEFINITION. The one type of instructions: the thirty host commands (R101), the eight application frames (R114) and the
two frame-control patterns (R110, R111), one constructor per row of the opcode table, in the table's order. -/

namespace Sys2Proof

/-- A Register-Pair Record (R113). An Address Record is a `Half`. -/
structure PairRec where
  addr : Half
  value : Value
deriving DecidableEq, Repr, Inhabited

/-- What the block executes (R2): host commands from the host port, and the two wire formats it builds and parses. -/
inductive Instr where
  -- host commands: RADIO (41_radio.md)
  | radioInit
  | radioGetTxPacket
  | radioPacketSend (n : Byte)
  | radioIsPacketAvailable
  | radioGetRxPacket
  | radioDismissRxPacket
  -- host commands: LINK (42_link.md)
  | linkInit (pan addr : Half)
  | linkSetDst (addr : Half)
  | linkGetSrc
  | linkGetTxPacket
  | linkPacketSend (n : Byte)
  | linkIsPacketAvailable
  | linkGetRxPacket
  | linkDismissRxPacket
  -- host commands: APP (43_protocol.md)
  | appInit
  | appSetReadAnsCb (present : Byte)
  | appSetWriteAnsCb (present : Byte)
  | appGetReadBuf
  | appGetWriteBuf
  | appMaxCount (cmd : Byte)
  | appSendReadCmd (ep count : Byte)
  | appSendWriteCmd (ep count : Byte)
  | appRegisterHandler (ep flags : Byte)
  | appSendReadAns (count : Byte)
  | appSendWriteAns (count : Byte)
  | appUpdate
  -- host commands: host buffer access and upcalls (40_packet_interface.md)
  | txbufWrite (index value : Byte)
  | txbufRead (index : Byte)
  | rxbufRead (index : Byte)
  | upcallReturn
  -- application frames (R112 to R115): endpoint and records, as received
  | readCmd (ep : Byte) (records : List Half)
  | readAns (ep : Byte) (records : List PairRec)
  | writeCmd (ep : Byte) (records : List PairRec)
  | writeAns (ep : Byte) (records : List Half)
  -- reserved application codes (R115): endpoint byte and whatever follows
  | listCmd (ep : Byte) (payload : List Byte)
  | listAns (ep : Byte) (payload : List Byte)
  | findCmd (ep : Byte) (payload : List Byte)
  | findAns (ep : Byte) (payload : List Byte)
  -- frame control: the transmitted pattern (R110), and a received value the filter accepts (R111) with the bits that
  -- stand outside the mask
  | linkFcTx (version : BitVec 2)
  | linkFcFilter (pending ackReq : Bool) (reserved : BitVec 3) (version : BitVec 2)
deriving DecidableEq, Repr, Inhabited

/-- Where an instruction comes from: the host command port, the application frame of a received link payload, or a
frame-control field written or received. -/
inductive Source where
  | host | app | fcTx | fcRx
deriving DecidableEq, Repr

def Instr.source : Instr → Source
  | .readCmd _ _ | .readAns _ _ | .writeCmd _ _ | .writeAns _ _ => .app
  | .listCmd _ _ | .listAns _ _ | .findCmd _ _ | .findAns _ _ => .app
  | .linkFcTx _ => .fcTx
  | .linkFcFilter _ _ _ _ => .fcRx
  | .radioInit | .radioGetTxPacket | .radioPacketSend _ | .radioIsPacketAvailable | .radioGetRxPacket
  | .radioDismissRxPacket | .linkInit _ _ | .linkSetDst _ | .linkGetSrc | .linkGetTxPacket | .linkPacketSend _
  | .linkIsPacketAvailable | .linkGetRxPacket | .linkDismissRxPacket | .appInit | .appSetReadAnsCb _
  | .appSetWriteAnsCb _ | .appGetReadBuf | .appGetWriteBuf | .appMaxCount _ | .appSendReadCmd _ _
  | .appSendWriteCmd _ _ | .appRegisterHandler _ _ | .appSendReadAns _ | .appSendWriteAns _ | .appUpdate
  | .txbufWrite _ _ | .txbufRead _ | .rxbufRead _ | .upcallReturn => .host

end Sys2Proof
end

