-- ==== Sys2Proof/WellFormed.lean ====
section
/-! DEFINITION. The operand checks of R103 and the sizes a received application frame can have (R245, R246). -/

namespace Sys2Proof

/-- How many payload bytes follow an application header in a full link payload (R246). -/
def recordBytes : Nat := linkMtu - appHdr

/-- A present byte is 0 or 1 (R103). -/
def presentOk (b : Byte) : Bool := decide (b.toNat ≤ 1)

/-- Bits 7:2 of a flags byte are zero (R103). -/
def flagsOk (b : Byte) : Bool := b.extractLsb' 2 6 == 0#6

/-- A received record array is not empty (R245) and fits in a link payload (R246). -/
def sizeOk (count size : Nat) : Bool := decide (1 ≤ count ∧ count * size ≤ recordBytes)

/-- Well-formed: what the decoder answers and the encoder accepts. -/
def Instr.wf : Instr → Bool
  | .appSetReadAnsCb p => presentOk p
  | .appSetWriteAnsCb p => presentOk p
  | .appRegisterHandler _ f => flagsOk f
  | .readCmd _ rs => sizeOk rs.length addrRec
  | .readAns _ rs => sizeOk rs.length pairRec
  | .writeCmd _ rs => sizeOk rs.length pairRec
  | .writeAns _ rs => sizeOk rs.length addrRec
  | .listCmd _ bs => sizeOk bs.length 1
  | .listAns _ bs => sizeOk bs.length 1
  | .findCmd _ bs => sizeOk bs.length 1
  | .findAns _ bs => sizeOk bs.length 1
  | .radioInit | .radioGetTxPacket | .radioPacketSend _ | .radioIsPacketAvailable | .radioGetRxPacket
  | .radioDismissRxPacket | .linkInit _ _ | .linkSetDst _ | .linkGetSrc | .linkGetTxPacket | .linkPacketSend _
  | .linkIsPacketAvailable | .linkGetRxPacket | .linkDismissRxPacket | .appInit | .appGetReadBuf | .appGetWriteBuf
  | .appMaxCount _ | .appSendReadCmd _ _ | .appSendWriteCmd _ _ | .appSendReadAns _ | .appSendWriteAns _
  | .appUpdate | .txbufWrite _ _ | .txbufRead _ | .rxbufRead _ | .upcallReturn | .linkFcTx _
  | .linkFcFilter _ _ _ _ => true

end Sys2Proof
end

