-- ==== Sys2Proof/Decode.lean ====
section
/-! DEFINITION. Decoding: host commands (R100 to R104), application frames (R112 to R115, R245), frame-control values
(R109 to R111); then the encoder from the same tables, and the opcode-table word of the host's probe. -/

namespace Sys2Proof

/-! ## Fields (R8, R72) -/

/-- The 16-bit value of two bytes, the lower index first (R72). -/
def le16 (b0 b1 : Byte) : Half := b1 ++ b0

/-- The 32-bit value of four bytes, the lowest index first (R72). -/
def le32 (b0 b1 b2 b3 : Byte) : Value := b3 ++ b2 ++ b1 ++ b0

/-- The two bytes of a 16-bit value, bits 7:0 first (R72). -/
def bytes16 (v : Half) : List Byte := [v.extractLsb' 0 8, v.extractLsb' 8 8]

/-- The four bytes of a 32-bit value, bits 7:0 first (R72). -/
def bytes32 (v : Value) : List Byte :=
  [v.extractLsb' 0 8, v.extractLsb' 8 8, v.extractLsb' 16 8, v.extractLsb' 24 8]

/-! ## Host commands -/

/-- What the decoder answers for the bytes on the host port. -/
inductive HostDecode where
  | ok (i : Instr) (rest : List Byte)
  /-- Opcode not in R101 (R104); the bytes after it. -/
  | illegalOpcode (rest : List Byte)
  /-- An operand check of R103 failed; the bytes after the command. -/
  | badOperand (rest : List Byte)
  /-- Fewer bytes than the opcode asks for (R100); the command is not complete yet. -/
  | incomplete
deriving DecidableEq, Repr

/-- A command with one operand byte. -/
def operand1 (f : Byte → Instr) : List Byte → HostDecode
  | b1 :: rest => .ok (f b1) rest
  | [] => .incomplete

/-- A command with two operand bytes. -/
def operand2 (f : Byte → Byte → Instr) : List Byte → HostDecode
  | b1 :: b2 :: rest => .ok (f b1 b2) rest
  | _ => .incomplete

/-- A command with four operand bytes. -/
def operand4 (f : Byte → Byte → Byte → Byte → Instr) : List Byte → HostDecode
  | b1 :: b2 :: b3 :: b4 :: rest => .ok (f b1 b2 b3 b4) rest
  | _ => .incomplete

/-- The operand checks of R103, applied at decode. -/
def checkOperands : HostDecode → HostDecode
  | .ok i rest => if i.wf then .ok i rest else .badOperand rest
  | d => d

/-- The opcode map of R101. -/
def decodeOpcode (opcode : Byte) (args : List Byte) : HostDecode :=
  match opcode.toNat with
  | 0x01 => .ok .radioInit args
  | 0x02 => .ok .radioGetTxPacket args
  | 0x03 => operand1 .radioPacketSend args
  | 0x04 => .ok .radioIsPacketAvailable args
  | 0x05 => .ok .radioGetRxPacket args
  | 0x06 => .ok .radioDismissRxPacket args
  | 0x10 => operand4 (fun a b c d => .linkInit (le16 a b) (le16 c d)) args
  | 0x11 => operand2 (fun a b => .linkSetDst (le16 a b)) args
  | 0x12 => .ok .linkGetSrc args
  | 0x13 => .ok .linkGetTxPacket args
  | 0x14 => operand1 .linkPacketSend args
  | 0x15 => .ok .linkIsPacketAvailable args
  | 0x16 => .ok .linkGetRxPacket args
  | 0x17 => .ok .linkDismissRxPacket args
  | 0x20 => .ok .appInit args
  | 0x21 => operand1 .appSetReadAnsCb args
  | 0x22 => operand1 .appSetWriteAnsCb args
  | 0x23 => .ok .appGetReadBuf args
  | 0x24 => .ok .appGetWriteBuf args
  | 0x25 => operand1 .appMaxCount args
  | 0x26 => operand2 .appSendReadCmd args
  | 0x27 => operand2 .appSendWriteCmd args
  | 0x28 => operand2 .appRegisterHandler args
  | 0x29 => operand1 .appSendReadAns args
  | 0x2A => operand1 .appSendWriteAns args
  | 0x2B => .ok .appUpdate args
  | 0x30 => operand2 .txbufWrite args
  | 0x31 => operand1 .txbufRead args
  | 0x32 => operand1 .rxbufRead args
  | 0x3F => .ok .upcallReturn args
  | _ => .illegalOpcode args

/-- The command at the head of the host port (R100, R101, R103, R104). -/
def decodeHost : List Byte → HostDecode
  | [] => .incomplete
  | opcode :: args => checkOperands (decodeOpcode opcode args)

/-! ## Application frames -/

/-- A packed array of Address Records (R113); none where the size is no multiple of 2. -/
def addrRecords : List Byte → Option (List Half)
  | [] => some []
  | [_] => none
  | b0 :: b1 :: rest => (addrRecords rest).map (le16 b0 b1 :: ·)

/-- A packed array of Register-Pair Records (R113); none where the size is no multiple of 6. -/
def pairRecords : List Byte → Option (List PairRec)
  | [] => some []
  | b0 :: b1 :: b2 :: b3 :: b4 :: b5 :: rest => (pairRecords rest).map (⟨le16 b0 b1, le32 b2 b3 b4 b5⟩ :: ·)
  | _ => none

/-- The records after the header, by command code (R114, R241). -/
def decodeRecords (cmd ep : Byte) (payload : List Byte) : Option Instr :=
  match cmd.toNat with
  | 0x01 => (addrRecords payload).map (.readCmd ep)
  | 0x02 => (pairRecords payload).map (.readAns ep)
  | 0x03 => (pairRecords payload).map (.writeCmd ep)
  | 0x04 => (addrRecords payload).map (.writeAns ep)
  | 0x05 => some (.listCmd ep payload)
  | 0x06 => some (.listAns ep payload)
  | 0x07 => some (.findCmd ep payload)
  | 0x08 => some (.findAns ep payload)
  | _ => none

/-- The application frame a link payload holds (R112, R245). A frame at or below header size, a payload that is no
multiple of the record size and a code without a row are `none`; a reserved code is named here and dropped by its
meaning (R115). -/
def decodeApp : List Byte → Option Instr
  | cmd :: ep :: b :: rest => decodeRecords cmd ep (b :: rest)
  | _ => none

/-! ## Frame control -/

/-- The mask of the receive filter (R111). -/
def fcMask : Half := 0xCC4F#16

/-- What the masked field must be (R111). -/
def fcExpect : Half := 0x8841#16

/-- The transmitted value for a frame version (R110). -/
def fcTx (version : BitVec 2) : Half := 0x8861#16 ||| (version.zeroExtend 16 <<< 12)

/-- The receive filter of R111. -/
def fcAccepted (fc : Half) : Bool := fc &&& fcMask == fcExpect

/-- A received frame control that passes the filter, with the bits outside the mask (R109, R111). -/
def decodeFcRx (fc : Half) : Option Instr :=
  if fcAccepted fc then
    some (.linkFcFilter (fc.getLsbD 4) (fc.getLsbD 5) (fc.extractLsb' 7 3) (fc.extractLsb' 12 2))
  else none

/-- The transmitted pattern (R110). -/
def decodeFcTx (fc : Half) : Option Instr :=
  if fc = fcTx (fc.extractLsb' 12 2) then some (.linkFcTx (fc.extractLsb' 12 2)) else none

/-- A two-byte frame-control field read as a pattern. -/
def decodeFcField (f : Half → Option Instr) : List Byte → Option Instr
  | [b0, b1] => f (le16 b0 b1)
  | _ => none

/-- The decoder of each source. -/
def decodeFrom (source : Source) (bytes : List Byte) : Option Instr :=
  match source with
  | .host => match decodeHost bytes with
    | .ok i [] => some i
    | _ => none
  | .app => decodeApp bytes
  | .fcTx => decodeFcField decodeFcTx bytes
  | .fcRx => decodeFcField decodeFcRx bytes

/-! ## Encoding -/

/-- The bytes of an array of Address Records (R113). -/
def addrBytes (rs : List Half) : List Byte := rs.flatMap bytes16

/-- The bytes of an array of Register-Pair Records (R113). -/
def pairBytes (rs : List PairRec) : List Byte := rs.flatMap fun r => bytes16 r.addr ++ bytes32 r.value

/-- A frame-control value from its fields (R109): data, security off, compression on, short addressing on both sides. -/
def fcFields (pending ackReq : Bool) (reserved : BitVec 3) (version : BitVec 2) : Half :=
  0b10#2 ++ version ++ 0b10#2 ++ reserved ++ 1#1 ++ BitVec.ofBool ackReq ++ BitVec.ofBool pending ++ 0#1 ++ 0b001#3

/-- The bytes of an instruction: a host command (R101), the link payload of an application frame (R112), or the two
bytes of a frame-control field (R108). -/
def encode : Instr → List Byte
  | .radioInit => [0x01#8]
  | .radioGetTxPacket => [0x02#8]
  | .radioPacketSend n => [0x03#8, n]
  | .radioIsPacketAvailable => [0x04#8]
  | .radioGetRxPacket => [0x05#8]
  | .radioDismissRxPacket => [0x06#8]
  | .linkInit pan addr => 0x10#8 :: (bytes16 pan ++ bytes16 addr)
  | .linkSetDst addr => 0x11#8 :: bytes16 addr
  | .linkGetSrc => [0x12#8]
  | .linkGetTxPacket => [0x13#8]
  | .linkPacketSend n => [0x14#8, n]
  | .linkIsPacketAvailable => [0x15#8]
  | .linkGetRxPacket => [0x16#8]
  | .linkDismissRxPacket => [0x17#8]
  | .appInit => [0x20#8]
  | .appSetReadAnsCb present => [0x21#8, present]
  | .appSetWriteAnsCb present => [0x22#8, present]
  | .appGetReadBuf => [0x23#8]
  | .appGetWriteBuf => [0x24#8]
  | .appMaxCount cmd => [0x25#8, cmd]
  | .appSendReadCmd ep count => [0x26#8, ep, count]
  | .appSendWriteCmd ep count => [0x27#8, ep, count]
  | .appRegisterHandler ep flags => [0x28#8, ep, flags]
  | .appSendReadAns count => [0x29#8, count]
  | .appSendWriteAns count => [0x2A#8, count]
  | .appUpdate => [0x2B#8]
  | .txbufWrite index value => [0x30#8, index, value]
  | .txbufRead index => [0x31#8, index]
  | .rxbufRead index => [0x32#8, index]
  | .upcallReturn => [0x3F#8]
  | .readCmd ep rs => 0x01#8 :: ep :: addrBytes rs
  | .readAns ep rs => 0x02#8 :: ep :: pairBytes rs
  | .writeCmd ep rs => 0x03#8 :: ep :: pairBytes rs
  | .writeAns ep rs => 0x04#8 :: ep :: addrBytes rs
  | .listCmd ep bs => 0x05#8 :: ep :: bs
  | .listAns ep bs => 0x06#8 :: ep :: bs
  | .findCmd ep bs => 0x07#8 :: ep :: bs
  | .findAns ep bs => 0x08#8 :: ep :: bs
  | .linkFcTx version => bytes16 (fcTx version)
  | .linkFcFilter pending ackReq reserved version => bytes16 (fcFields pending ackReq reserved version)

/-! ## The opcode table's words (log 14) -/

/-- The first `n` bytes of a word laid out with its low byte first. -/
def tableBytes (w : Nat) : Nat → List Byte
  | 0 => []
  | n + 1 => BitVec.ofNat 8 w :: tableBytes (w / 256) n

/-- The longest host command, in bytes (R100). -/
def hostLongest : Nat := 5

/-- The link payload size in which a lone application code is laid out: a code, an endpoint byte and six bytes, one
Register-Pair Record long. -/
def tableAppSize : Nat := 8

/-- What the decoders read from a word of the opcode table, the missing operand bytes zero. The three formats of the
table are told apart by where a word arrives, which a word alone does not say: it is read as a host command where R101
has its opcode, else as an application code (8 bits) or a frame-control value (16 bits) (log 14). -/
def decodeTableWord (nbits w : Nat) : Option Instr :=
  match decodeHost (tableBytes w hostLongest) with
  | .ok i _ => some i
  | _ =>
    if nbits ≤ 8 then decodeApp (tableBytes w tableAppSize)
    else (decodeFcTx (BitVec.ofNat 16 w)).or (decodeFcRx (BitVec.ofNat 16 w))

end Sys2Proof
end

