-- ==== Sys2Proof/Machine/State.lean ====
section
/-! DEFINITION. The state of the block (R31, R32, R70, R71), of its sequencer, of the chip agent (R47) and of the clock
(R48), the coming events of its agents (R12), and the state after reset (R330, R331). -/

namespace Sys2Proof.Machine

/-- The seven fault reasons of R301. A fault is raised into `State.fault` (a next state), and every later step answers it
as `Host.Outcome.fault`, until a reset event. Each is the spec's own outcome. -/
inductive Fault where
  /-- Raised by the fetch of a host command whose opcode is not in R101 (R104). Safe: the spec's own fault. -/
  | illegalOpcode
  /-- Raised by the fetch of APP_SET_READ_ANS_CB, APP_SET_WRITE_ANS_CB or APP_REGISTER_HANDLER with a bad operand, and by
  their meanings on such an operand (R103). Safe: the spec's own fault. -/
  | badOperand
  /-- Raised by every RADIO_, LINK_ and APP_ command but the three INITs when a ready flag is 0 (R37). Safe: the spec's
  own fault. -/
  | notInitialised
  /-- Raised by TXBUF_WRITE, TXBUF_READ and RXBUF_READ with an index past the buffer's end (R146 to R148). Safe: the
  spec's own fault. -/
  | badIndex
  /-- Raised by an upcall of APP_UPDATE while MAX_UPCALL_DEPTH upcalls are outstanding (R150). Safe: the spec's own
  fault. -/
  | upcallDepth
  /-- Raised by UPCALL_RETURN when the top frame is not suspended (R151). Safe: the spec's own fault. -/
  | noUpcall
  /-- Raised by the ISR and by the queued path of a dismiss when the chip returns a length above 127 (R175, R178).
  Safe: the spec's own fault. -/
  | chipLength
deriving DecidableEq, Repr

/-- The reasons a step has no meaning. -/
inductive Refusal where
  /-- Raised by no instruction of this model: every arm of `exec` has its meaning. Safe: the machine would stop. -/
  | notModelled (mnemonic : String)
deriving DecidableEq, Repr

/-- The typed result of a host command (R105). -/
inductive Result where
  | unit
  | bool (b : Bool)
  /-- `{off, mtu}` of the transmit operations. -/
  | txPacket (off mtu : Nat)
  /-- `none | some {off, size}` of the receive operations. -/
  | rxPacket (slice : Option (Nat × Nat))
  /-- `{off, max}` of the record-buffer accessors. -/
  | records (off max : Nat)
  | byte (v : Byte)
  | half (v : Half)
  /-- `none | some id` of APP_REGISTER_HANDLER. -/
  | handler (id : Option Nat)
deriving DecidableEq, Repr

/-- The two slave callbacks (R44, R263). -/
inductive SlaveKind where
  | read | write
deriving DecidableEq, Repr

/-- The kinds of an upcall record (R106). -/
inductive UpcallKind where
  | readAnsCb | writeAnsCb
  | slave (kind : SlaveKind)
deriving DecidableEq, Repr

/-- An upcall record (R106): `handler` is absent for the master kinds. -/
structure Upcall where
  kind : UpcallKind
  handler : Option Nat
  ep : Byte
  off : Nat
  count : Nat
deriving DecidableEq, Repr

/-- The two targets of `set_state` (R164). -/
inductive Target where
  | listen | send
deriving DecidableEq, Repr

/-- The three chip commands (R163). -/
inductive ChipCmd where
  | listen | send | recover
deriving DecidableEq, Repr

/-- The uses of `set_state`: step T2 of a send of `n` bytes, step T11 of a send with its result, step I3. -/
inductive SetState where
  | transmit (n : Nat)
  | restore (ok : Bool)
  | init
deriving DecidableEq, Repr

/-- The index of a frame's next micro-step, under the label the spec's pseudocode gives it, with the operation's local
values (R31). -/
inductive Pc where
  /-- Line 1 of an operation: it runs as the command is issued (log 4). -/
  | start
  /-- RADIO_INIT (R181). -/
  | i2 | i4
  /-- `set_state` (R164). -/
  | ss1 (use : SetState)
  | ss2 (use : SetState) (c : ChipCmd)
  /-- RADIO_PACKET_SEND (R167). -/
  | t1 (n : Nat)
  | t3 (n : Nat)
  | t4 (n : Nat)
  | t5
  | t6
  | t7 (t0 : Nat)
  | t8 (t0 : Nat)
  | t9 (t0 : Nat)
  | t10 (done : Bool)
  | t12 (ok : Bool)
  /-- RADIO_DISMISS_RX_PACKET (R178). -/
  | d1 | d2 | d3
  /-- LINK_PACKET_SEND (R214). -/
  | l1 (n : Nat)
  | l2 (n : Nat)
  /-- `app_send` (R256); `ep` is absent where the dispatch context is stamped (R259, R260). -/
  | a2 (cmd : Byte) (ep : Option Byte) (count : Nat)
  /-- APP_UPDATE (R261 to R263). -/
  | u2
  | u4 (u : Upcall)
  | sd1 (kind : SlaveKind) (i : Nat) (ep : Byte) (count : Nat)
  | sd2 (kind : SlaveKind) (i : Nat) (ep : Byte) (count : Nat)
deriving DecidableEq, Repr

/-- An operation frame (R31): the operation, its next micro-step and, while it is suspended, the record presented on the
upcall port (R150). -/
structure Frame where
  op : Instr
  pc : Pc
  upcall : Option Upcall
deriving DecidableEq, Repr

/-- A registry entry (R44); its handler id is its position. -/
structure Handler where
  ep : Byte
  hasRead : Bool
  hasWrite : Bool
deriving DecidableEq, Repr

/-- Bytes by address, in one canonical form: addresses strictly rising. An address that is not listed holds no defined
byte; no byte is equal to that. -/
abbrev Memory := List Host.Cell

/-- The canonical form of a memory of `size` bytes. -/
abbrev Memory.wf (size : Nat) (m : Memory) : Prop :=
  m.Pairwise (fun a b => a.1 < b.1) ∧ ∀ c ∈ m, c.1 < size

/-- TXBUF or RXBUF: its defined bytes, and the draw that gives every other byte (R78, R71). -/
structure Buffer where
  cells : Memory
  draw : Nat
deriving DecidableEq, Repr

/-- What the chip agent may do at a boundary (R80): show another register value, or hold a received frame. -/
inductive ChipMove where
  | status (code : Nat)
  | irqStatus (bits : Nat)
  | irqLine (level : Bool)
  | trac (code : Nat)
  | receive (len : Byte) (bytes : List Byte)
deriving DecidableEq, Repr

/-- What happens next (R12, R80, R307). -/
inductive Event where
  /-- The sequencer takes its next micro-step or, where it may, the host issues its next command. -/
  | go
  /-- The ISR takes its step, if the interrupt is enabled (R175). -/
  | isr
  | chip (m : ChipMove)
  /-- The clock moves on by so many milliseconds (R48). -/
  | tick (ms : Nat)
  /-- The host places bytes on its command port (R100). -/
  | host (bytes : List Byte)
  /-- A reset event (R330). -/
  | reset
deriving DecidableEq, Repr

/-- The state of one instance of the block and its environment. -/
structure State where
  /-- `S.irq_en` (R33). -/
  irqEn : Bool
  /-- `S.rx_waiting` (R34). -/
  rxWaiting : Bool
  /-- `S.rx_queued` (R35). -/
  rxQueued : Bool
  /-- `S.radio_ready`, `S.link_ready`, `S.app_ready` (R37). -/
  radioReady : Bool
  linkReady : Bool
  appReady : Bool
  /-- `S.pan_id` (R38). -/
  panId : Half
  /-- `S.local_addr` (R39). -/
  localAddr : Half
  /-- `S.dst_addr` (R40). -/
  dstAddr : Half
  /-- `S.seq` (R41). -/
  seq : Byte
  /-- `S.last_src` (R42). -/
  lastSrc : Half
  /-- `S.cb_read_ans`, `S.cb_write_ans` (R43). -/
  cbReadAns : Bool
  cbWriteAns : Bool
  /-- `S.handlers` (R44). -/
  handlers : List Handler
  /-- `S.dispatch_ep` (R45). -/
  dispatchEp : Byte
  /-- `S.frames`, the top frame first (R31, R46). -/
  frames : List Frame
  /-- `S.fault` (R301). -/
  fault : Option Fault
  /-- TXBUF (R70). -/
  txBuf : Buffer
  /-- RXBUF (R71). -/
  rxBuf : Buffer
  /-- The chip agent (R47). -/
  chip : Chip
  /-- The clock (R48), before it is cut to MS_WIDTH bits. -/
  clock : Nat
  /-- The bytes on the host command port not yet taken (R100, log 5). -/
  port : List Byte
  /-- The result of the last command issued, once it is delivered (R105, log 5). -/
  result : Option Result
  /-- The coming events, the next one first (log 2). -/
  sched : List Event
  /-- How many draws have been taken (log 6). -/
  draws : Nat
  /-- The parameters of R6 (log 1). -/
  cfg : Params
deriving DecidableEq, Repr

/-- What an instruction or a step answers. -/
abbrev Outcome := Host.Outcome State Fault Refusal

/-- A new run (R330, R331): the chip, the clock and the parameters are not the block's to reset; unspecified fields are
draws, taken from draw number `draws` on. -/
def State.newRun (chip : Chip) (clock : Nat) (cfg : Params) (sched : List Event) (draws : Nat) : State where
  irqEn := false
  rxWaiting := false
  rxQueued := false
  radioReady := false
  linkReady := false
  appReady := false
  panId := Config.freeHalf draws
  localAddr := Config.freeHalf (draws + 1)
  dstAddr := Config.freeHalf (draws + 2)
  seq := 0
  lastSrc := Config.freeHalf (draws + 3)
  cbReadAns := false
  cbWriteAns := false
  handlers := []
  dispatchEp := Config.freeByte (draws + 4) 0
  frames := []
  fault := none
  txBuf := ⟨[], draws + 5⟩
  rxBuf := ⟨[], draws + 6⟩
  chip := chip
  clock := clock
  port := []
  result := none
  sched := sched
  draws := draws + 7
  cfg := cfg

/-- The machine right after power-on (R330, R331). -/
def State.reset : State := State.newRun Config.powerOnChip Config.powerOnClock Config.params [] 0

end Sys2Proof.Machine
end

