-- ==== Sys2Proof/Machine/Operands.lean ====
section
/-! DEFINITION. Operand forms and arithmetic: buffer bytes and multi-byte fields (R70 to R73), the chip's codes under the
parameters (R162, R163, D14), record sizes and counts (R241 to R243), the modular clock (R48, R171). -/

namespace Sys2Proof.Machine

/-! ## Memory and buffers -/

/-- The byte an address holds, if it is defined. -/
def Memory.get? : Memory → Nat → Option Byte
  | [], _ => none
  | (k, v) :: rest, a => if k = a then some v else Memory.get? rest a

/-- Write one byte, keeping the canonical form. -/
def Memory.set : Memory → Nat → Byte → Memory
  | [], a, v => [(a, v)]
  | (k, w) :: rest, a, v =>
    if a < k then (a, v) :: (k, w) :: rest
    else if a = k then (a, v) :: rest
    else (k, w) :: Memory.set rest a v

/-- A memory that lists exactly the given bytes, from an address on. -/
def Memory.fromBytes : Nat → List Byte → Memory
  | _, [] => []
  | a, b :: rest => (a, b) :: Memory.fromBytes (a + 1) rest

/-- One byte of a buffer: what was last written there, else the byte of the buffer's draw (R75, R78). -/
def Buffer.read (b : Buffer) (i : Nat) : Byte := (Memory.get? b.cells i).getD (Config.freeByte b.draw i)

/-- `BUF[i] <- v`. -/
def Buffer.write (b : Buffer) (i : Nat) (v : Byte) : Buffer := { b with cells := Memory.set b.cells i v }

/-- `putLE16(BUF, off, v)` (R9). -/
def Buffer.putLE16 (b : Buffer) (off : Nat) (v : Half) : Buffer :=
  (b.write off (v.extractLsb' 0 8)).write (off + 1) (v.extractLsb' 8 8)

/-- `LE16(BUF, off)` (R9). -/
def Buffer.getLE16 (b : Buffer) (off : Nat) : Half := le16 (b.read off) (b.read (off + 1))

/-- `LE32(BUF, off)` (R9). -/
def Buffer.getLE32 (b : Buffer) (off : Nat) : Value :=
  le32 (b.read off) (b.read (off + 1)) (b.read (off + 2)) (b.read (off + 3))

/-- `MemRead(BUF, off, n)` (R9). -/
def Buffer.slice (b : Buffer) (off : Nat) : Nat → List Byte
  | 0 => []
  | n + 1 => b.read off :: Buffer.slice b (off + 1) n

/-- A buffer every byte of which is a fresh draw (R78). -/
def Buffer.drawn (draw : Nat) : Buffer := ⟨[], draw⟩

/-- RXBUF after a pull: the length byte, the frame, and a fresh draw above it (R71, R175). -/
def Buffer.ofFrame (len : Byte) (bytes : List Byte) (draw : Nat) : Buffer :=
  ⟨Memory.fromBytes 0 (len :: bytes), draw⟩

/-! ## Parameters -/

/-- N_HANDLERS (R44). -/
def nHandlers (p : Params) : Nat := p.handlersBeyondOne + 1

/-- MAX_UPCALL_DEPTH (R46). -/
def maxUpcallDepth (p : Params) : Nat := p.upcallsBeyondOne + 1

/-- `status_class` (R162). -/
def statusClass (p : Params) (code : Nat) : StatusClass := (p.statusClasses.lookup code).getD .other

/-- The code of a chip command (R163). -/
def cmdCode (p : Params) : ChipCmd → Nat
  | .listen => p.cmdListen
  | .send => p.cmdSend
  | .recover => p.cmdRecover

/-- `irq_rx_done` (D14); a cleared register shows nothing (log 9). -/
def irqRxDone (p : Params) (bits : Nat) : Bool := bits != 0 && p.rxDone.contains bits

/-- `irq_tx_done` (D14); a cleared register shows nothing (log 9). -/
def irqTxDone (p : Params) (bits : Nat) : Bool := bits != 0 && p.txDone.contains bits

/-- `cmd_for(t)` (R163). -/
def cmdFor : Target → ChipCmd
  | .listen => .listen
  | .send => .send

/-- The status class that is the target itself (R162). -/
def targetClass : Target → StatusClass
  | .listen => .listen
  | .send => .send

/-- The target of each use of `set_state` (R167 T2 and T11, R181 I3). -/
def setStateTarget : SetState → Target
  | .transmit _ => .send
  | .restore _ => .listen
  | .init => .listen

/-- Where each use of `set_state` goes on (R167, R181). -/
def setStateNext : SetState → Pc
  | .transmit n => .t3 n
  | .restore ok => .t12 ok
  | .init => .i4

/-! ## Clock (R48, R171) -/

/-- `NowMs()`. -/
def nowMs (p : Params) (clock : Nat) : Nat := clock % 2 ^ p.msWidth

/-- `(NowMs() - t0) mod 2^MS_WIDTH`. -/
def elapsedMs (p : Params) (now t0 : Nat) : Int := ((now : Int) - (t0 : Int)) % ((2 ^ p.msWidth : Nat) : Int)

/-! ## Records (R240 to R243) -/

/-- `rec_size(cmd)` (R241). -/
def recSize (cmd : Byte) : Nat :=
  match cmd.toNat with
  | 0x01 => addrRec
  | 0x02 => pairRec
  | 0x03 => pairRec
  | 0x04 => addrRec
  | _ => 0

/-- `pair(cmd)`: the answer of a command and the command of an answer (R240). -/
def pairedCode (cmd : Byte) : Byte :=
  match cmd.toNat with
  | 0x01 => 0x02
  | 0x02 => 0x01
  | 0x03 => 0x04
  | 0x04 => 0x03
  | _ => cmd

/-- `cap_size(cmd)` (R242). -/
def capSize (cmd : Byte) : Nat := max (recSize cmd) (recSize (pairedCode cmd))

/-- `mc(mtu, rs)` (R243). -/
def recordCount (mtu rs : Nat) : Nat := if rs = 0 ∨ mtu < appHdr then 0 else (mtu - appHdr) / rs

/-- `max_count(cmd)` (R243). -/
def maxCount (cmd : Byte) : Nat := recordCount linkMtu (capSize cmd)

/-! ## Offsets (R70, R71, R153) -/

/-- Offset of the link payload in TXBUF. -/
def txLinkOff : Nat := linkHdr

/-- Offset of the application records in TXBUF. -/
def txRecordOff : Nat := linkHdr + appHdr

/-- Offset of the radio payload in RXBUF. -/
def rxRadioOff : Nat := 1

/-- Offset of the link payload in RXBUF. -/
def rxLinkOff : Nat := 1 + linkHdr

/-- Offset of the application records in RXBUF. -/
def rxRecordOff : Nat := 1 + linkHdr + appHdr

end Sys2Proof.Machine
end

