-- ==== Sys2Proof/Machine/Flags.lean ====
section
/-! DEFINITION. The flags: ready flags (R37), callback flags of a registry entry (R44, R258), the receive slot (R34 to
R36), and where the interrupt is masked (R180). -/

namespace Sys2Proof.Machine

/-- The three sub-blocks, from the bottom (R1, R37). -/
inductive SubBlock where
  | radio | link | app
deriving DecidableEq, Repr

/-- The ready flags an operation of a sub-block needs: its own and those below it (R37). -/
def isReady (s : State) : SubBlock → Bool
  | .radio => s.radioReady
  | .link => s.radioReady && s.linkReady
  | .app => s.radioReady && s.linkReady && s.appReady

/-- Whether an entry has the callback for a kind (R263). -/
def hasCallback (h : Handler) : SlaveKind → Bool
  | .read => h.hasRead
  | .write => h.hasWrite

/-- The registry entry a flags byte describes: bit 0 has_read, bit 1 has_write (R258). -/
def handlerOf (ep flags : Byte) : Handler := ⟨ep, flags.getLsbD 0, flags.getLsbD 1⟩

/-- The states of the receive buffer (R36). -/
inductive Slot where
  | empty | waiting | queued
  /-- Between the micro-steps of a dismiss on its queued path. -/
  | transient
deriving DecidableEq, Repr

/-- The ownership state of RXBUF, a function of the two flags (R36). -/
def slotOf (s : State) : Slot :=
  match s.rxWaiting, s.rxQueued with
  | false, false => .empty
  | true, false => .waiting
  | true, true => .queued
  | false, true => .transient

/-- The micro-steps at which the interrupt stands masked: T4 to T12 of a send, and RADIO_INIT after I1 (R170, R180). -/
def maskedAt : Pc → Bool
  | .i2 | .i4 | .t4 _ | .t5 | .t6 | .t7 _ | .t8 _ | .t9 _ | .t10 _ | .t12 _ => true
  | .ss1 (.restore _) | .ss1 .init | .ss2 (.restore _) _ | .ss2 .init _ => true
  | .ss1 (.transmit _) | .ss2 (.transmit _) _ => false
  | .start | .t1 _ | .t3 _ | .d1 | .d2 | .d3 | .l1 _ | .l2 _ | .a2 _ _ _ | .u2 | .u4 _ | .sd1 _ _ _ _
  | .sd2 _ _ _ _ => false

end Sys2Proof.Machine
end

