-- ==== Sys2Proof/Machine/Ops.lean ====
section
/-! DEFINITION. The shared operations: the sequencer (R31, R149), raising a fault (R301), upcalls (R150), the chip port
(R160), the buffers' draws (R78) and pulls (R175), and a reset event (R330). -/

namespace Sys2Proof.Machine

/-! ## Faults (R301): the one way an operation ends in a fault -/

/-- The code of a fault reason, as the table of R301 numbers it. -/
def Fault.code : Fault → Nat
  | .illegalOpcode => 1
  | .badOperand => 2
  | .notInitialised => 3
  | .badIndex => 4
  | .upcallDepth => 5
  | .noUpcall => 6
  | .chipLength => 7

/-- `raise Fault(r)`: the state given is the one before the micro-step, with the chip effects already made; the run has
ended, and every later step answers the fault. -/
def raise (r : Fault) (s : State) : Outcome := .next { s with fault := some r }

/-! ## The sequencer -/

/-- Push the frame of an operation just issued (R149). -/
def push (op : Instr) (s : State) : State := { s with frames := ⟨op, .start, none⟩ :: s.frames }

/-- The top frame's next micro-step is `pc` (R31). -/
def goto (pc : Pc) (s : State) : State :=
  { s with frames := match s.frames with
    | [] => []
    | f :: rest => { f with pc := pc } :: rest }

/-- The operation returns: its frame is popped and its result delivered (R31, R105). -/
def finish (r : Result) (s : State) : State := { s with frames := s.frames.tail, result := some r }

/-- Issue a command of a sub-block: the ready check, the new frame, then the operation's first micro-step (R37, R149). -/
def issue (b : SubBlock) (op : Instr) (first : State → Outcome) (s : State) : Outcome :=
  if isReady s b then first (push op s) else raise .notInitialised s

/-- Issue a command that is exempt from the ready check (R37). -/
def issueAlways (op : Instr) (first : State → Outcome) (s : State) : Outcome := first (push op s)

/-- How many frames are suspended in an upcall (R46). -/
def outstanding (s : State) : Nat := s.frames.countP (·.upcall.isSome)

/-- Mark the top frame suspended with its record on the upcall port; it resumes at `resume` (R150). -/
def suspend (u : Upcall) (resume : Pc) (s : State) : State :=
  { s with frames := match s.frames with
    | [] => []
    | f :: rest => { f with pc := resume, upcall := some u } :: rest }

/-- `upcall(u)`; `s` is the state before the micro-step and `written` what else the micro-step writes (R150, R301). -/
def upcall (u : Upcall) (resume : Pc) (s written : State) : Outcome :=
  if outstanding s = maxUpcallDepth s.cfg then raise .upcallDepth s else .next (suspend u resume written)

/-- The host may issue a command: the block is idle or its top frame is suspended (R149). -/
def hostMayIssue (s : State) : Bool :=
  match s.frames with
  | [] => true
  | f :: _ => f.upcall.isSome

/-! ## The chip port (R160) -/

/-- The chip's registers, set. -/
def setRegs (r : ChipRegs) (s : State) : State := { s with chip := { s.chip with regs := r } }

/-- `ChipCommand(c)`. -/
def chipCommand (c : ChipCmd) (s : State) : State :=
  { s with chip := { s.chip with command := some (cmdCode s.cfg c) } }

/-- `ChipReadIrqStatus()`: the bits before the read; the read clears the pending state (R75, R304, log 9). -/
def clearIrqStatus (s : State) : State :=
  setRegs { s.chip.regs with irqStatus := 0, irqLine := false } s

/-- `ChipWriteFrame(n, TXBUF[0 .. n-1])`: it overwrites the chip's one frame buffer (R160, R169, D43). -/
def chipWriteFrame (n : Nat) (s : State) : State :=
  { s with chip := { s.chip with buffer := .written (BitVec.ofNat 8 n) (s.txBuf.slice 0 n) } }

/-- `ChipPulseTrigger()`. -/
def chipPulseTrigger (s : State) : State :=
  { s with chip := { s.chip with triggers := s.chip.triggers + 1 } }

/-- `ChipPulseReset()`: a held frame is discarded and the registers are the chip's to choose (R181, log 11). -/
def chipPulseReset (s : State) : State :=
  { s with
    chip := { s.chip with regs := Config.freeRegs s.draws, buffer := .empty, resets := s.chip.resets + 1 }
    draws := s.draws + 1 }

/-- Exactly `n` bytes of a list, a free byte for each that is missing (R161 CH3). -/
def takeBytes (draw : Nat) : Nat → Nat → List Byte → List Byte
  | 0, _, _ => []
  | n + 1, i, [] => Config.freeByte draw i :: takeBytes draw n (i + 1) []
  | n + 1, i, b :: rest => b :: takeBytes draw n (i + 1) rest

/-- The frame `ChipReadFrame()` answers: the held one, else an unspecified frame of at most 127 bytes (R160, R161 CH2,
D43, log 10). -/
def chipFrame (s : State) : Byte × List Byte :=
  match s.chip.buffer with
  | .received len bytes => (len, takeBytes s.draws len.toNat 0 bytes)
  | .empty | .written _ _ =>
    let len : Byte := (Config.freeLen s.draws).zeroExtend 8
    (len, takeBytes s.draws len.toNat 0 [])

/-- The effect of `ChipReadFrame()`: the chip's hold is released (R75). -/
def chipReleaseFrame (s : State) : State :=
  { s with chip := { s.chip with buffer := .empty }, draws := s.draws + 1 }

/-! ## Buffers -/

/-- Every TXBUF byte becomes a fresh draw (R78). -/
def drawTx (s : State) : State := { s with txBuf := Buffer.drawn s.draws, draws := s.draws + 1 }

/-- A frame goes into RXBUF (R175, R178). -/
def loadRx (len : Byte) (bytes : List Byte) (s : State) : State :=
  { s with rxBuf := Buffer.ofFrame len bytes s.draws, draws := s.draws + 1 }

/-- Pull a frame from the chip into RXBUF, then write the flags (R175, R178); a length above 127 is CHIP_LENGTH, which
leaves the chip's release in place and writes nothing else (R301). -/
def pullFrame (s : State) (flags : State → State) : Outcome :=
  if (chipFrame s).1.toNat > radioMtu then raise .chipLength (chipReleaseFrame s)
  else .next (flags (loadRx (chipFrame s).1 (chipFrame s).2 (chipReleaseFrame s)))

/-! ## The environment's moves (R80) -/

/-- The chip agent moves. -/
def chipMove (m : ChipMove) (s : State) : State :=
  match m with
  | .status code => setRegs { s.chip.regs with status := code } s
  | .irqStatus bits => setRegs { s.chip.regs with irqStatus := bits } s
  | .irqLine level => setRegs { s.chip.regs with irqLine := level } s
  | .trac code => setRegs { s.chip.regs with trac := code } s
  | .receive len bytes => { s with chip := { s.chip with buffer := .received len bytes } }

/-- The clock moves on. -/
def clockTick (ms : Nat) (s : State) : State := { s with clock := s.clock + ms }

/-- The host places bytes on its port. -/
def hostPut (bytes : List Byte) (s : State) : State := { s with port := s.port ++ bytes }

/-- A reset event: a new run, with the chip, the clock and the parameters as they are (R330). -/
def resetEvent (s : State) : State := State.newRun s.chip s.clock s.cfg s.sched s.draws

end Sys2Proof.Machine
end

