-- ==== Sys2Proof/Machine/Radio.lean ====
section
/-! DEFINITION. RADIO (41_radio.md): `set_state`, the micro-steps of a send and of a dismiss, the ISR, and the meanings of
the six RADIO commands. A micro-step's name ends in the label the spec gives its line. -/

namespace Sys2Proof.Machine

/-! ## set_state (R164) -/

/-- SS1: read the status and return, spin, or choose a command. -/
def stepSS1 (use : SetState) (s : State) : Outcome :=
  let target := setStateTarget use
  let c := statusClass s.cfg s.chip.regs.status
  if c = targetClass target then .next (goto (setStateNext use) s)
  else match c with
    | .busy => .next (goto (.ss1 use) s)
    | .idle | .listen | .send => .next (goto (.ss2 use (cmdFor target)) s)
    | .other => .next (goto (.ss2 use .recover) s)

/-- SS2: issue the command and read again. -/
def stepSS2 (use : SetState) (c : ChipCmd) (s : State) : Outcome :=
  .next (goto (.ss1 use) (chipCommand c s))

/-! ## RADIO_PACKET_SEND (R167 to R173) -/

/-- T1: the size check (R168). -/
def stepT1 (n : Nat) (s : State) : Outcome :=
  if n > radioMtu then .next (finish (.bool false) s) else .next (goto (.ss1 (.transmit n)) s)

/-- T3: mask the receive interrupt (R170). -/
def stepT3 (n : Nat) (s : State) : Outcome := .next (goto (.t4 n) { s with irqEn := false })

/-- T4: write the frame (R169). -/
def stepT4 (n : Nat) (s : State) : Outcome := .next (goto .t5 (chipWriteFrame n s))

/-- T5: trigger the transmission. -/
def stepT5 (s : State) : Outcome := .next (goto .t6 (chipPulseTrigger s))

/-- T6: the start of the wait; `done` is false from here to T8. -/
def stepT6 (s : State) : Outcome := .next (goto (.t7 (nowMs s.cfg s.clock)) s)

/-- T7: read the interrupt-pending line (R171). -/
def stepT7 (t0 : Nat) (s : State) : Outcome :=
  .next (goto (bif s.chip.regs.irqLine then .t8 t0 else .t9 t0) s)

/-- T8: read and clear the interrupt status; other bits are lost (R171). -/
def stepT8 (t0 : Nat) (s : State) : Outcome :=
  .next (goto (bif irqTxDone s.cfg s.chip.regs.irqStatus then .t10 true else .t9 t0) (clearIrqStatus s))

/-- T9: the clock check (R171). -/
def stepT9 (t0 : Nat) (s : State) : Outcome :=
  .next (goto (if elapsedMs s.cfg (nowMs s.cfg s.clock) t0 ≥ txTimeoutMs then .t10 false else .t7 t0) s)

/-- T10: the result; TRAC is read only after a completion (R172). -/
def stepT10 (done : Bool) (s : State) : Outcome :=
  .next (goto (.ss1 (.restore (done && s.chip.regs.trac == s.cfg.tracSuccess))) s)

/-- T12: unmask, draw TXBUF, return (R173, R78). -/
def stepT12 (ok : Bool) (s : State) : Outcome :=
  .next (finish (.bool ok) (drawTx { s with irqEn := true }))

/-! ## RADIO_DISMISS_RX_PACKET (R178) -/

/-- D1: release the slot. -/
def stepD1 (s : State) : Outcome := .next (goto .d2 { s with rxWaiting := false })

/-- D2: stop where nothing is queued. -/
def stepD2 (s : State) : Outcome :=
  bif s.rxQueued then .next (goto .d3 s) else .next (finish .unit s)

/-- D3: pull the queued frame, all in one micro-step, at the end of which the interrupt is enabled. -/
def stepD3 (s : State) : Outcome :=
  pullFrame s fun t => finish .unit { t with rxWaiting := true, rxQueued := false, irqEn := true }

/-! ## The ISR (R175) -/

/-- The receive interrupt handler, one atomic step. -/
def isr (s : State) : Outcome :=
  bif irqRxDone s.cfg s.chip.regs.irqStatus then
    bif s.rxWaiting then .next { clearIrqStatus s with rxQueued := true }
    else pullFrame (clearIrqStatus s) fun t => { t with rxWaiting := true }
  else .next (clearIrqStatus s)

/-! ## RADIO_INIT (R181) -/

/-- I1. -/
def stepI1 (s : State) : Outcome :=
  .next (goto .i2 { s with irqEn := false, rxWaiting := false, rxQueued := false })

/-- I2; I3 is `set_state(LISTEN)`. -/
def stepI2 (s : State) : Outcome := .next (goto (.ss1 .init) (chipPulseReset s))

/-- I4. -/
def stepI4 (s : State) : Outcome := .next (finish .unit { s with radioReady := true, irqEn := true })

/-! ## The commands -/

/-- RADIO_INIT (R181). -/
def execRadioInit (s : State) : Outcome := issueAlways .radioInit stepI1 s

/-- RADIO_GET_TX_PACKET (R166). -/
def execRadioGetTxPacket (s : State) : Outcome :=
  issue .radio .radioGetTxPacket (fun t => .next (finish (.txPacket 0 radioMtu) t)) s

/-- RADIO_PACKET_SEND n (R167). -/
def execRadioPacketSend (n : Byte) (s : State) : Outcome :=
  issue .radio (.radioPacketSend n) (stepT1 n.toNat) s

/-- RADIO_IS_PACKET_AVAILABLE (R176). -/
def execRadioIsPacketAvailable (s : State) : Outcome :=
  issue .radio .radioIsPacketAvailable (fun t => .next (finish (.bool t.rxWaiting) t)) s

/-- RADIO_GET_RX_PACKET (R177). -/
def execRadioGetRxPacket (s : State) : Outcome :=
  issue .radio .radioGetRxPacket (fun t =>
    .next (finish (.rxPacket (bif t.rxWaiting then some (rxRadioOff, (t.rxBuf.read 0).toNat) else none)) t)) s

/-- RADIO_DISMISS_RX_PACKET (R178). -/
def execRadioDismissRxPacket (s : State) : Outcome := issue .radio .radioDismissRxPacket stepD1 s

end Sys2Proof.Machine
end

