-- ==== Sys2Proof/Machine/Link.lean ====
section
/-! DEFINITION. LINK (42_link.md): the framer functions, the two frame-control patterns, and the meanings of the eight LINK
commands. -/

namespace Sys2Proof.Machine

/-! ## Encapsulation (R201 to R204) -/

/-- The frame-control field of the frame under construction. -/
def putFrameControl (fc : Half) (s : State) : State := { s with txBuf := s.txBuf.putLE16 0 fc }

/-- `link_encap(n)` after its frame-control field: the rest of the header, the trailer, the sequence counter (R201). -/
def linkEncapBody (n : Nat) (s : State) : State :=
  { s with
    txBuf := (((((s.txBuf.write 2 s.seq).putLE16 3 s.panId).putLE16 5 s.dstAddr).putLE16 7 s.localAddr).write
      (linkHdr + n) 0).write (linkHdr + n + 1) 0
    seq := s.seq + 1 }

/-- LINK_FC_TX: the transmitted frame-control pattern goes into the header (R110, R201). Step L2 of a send runs it. -/
def execLinkFcTx (version : BitVec 2) (s : State) : Outcome := .next (putFrameControl (fcTx version) s)

/-- L1: the MTU check (R214). -/
def stepL1 (n : Nat) (s : State) : Outcome :=
  if n > linkMtu then .next (finish (.bool false) s) else .next (goto (.l2 n) s)

/-- What L2 does besides writing the frame-control field: the frame goes to the radio as `size = n + 11` (R214). -/
def beforeFcTx (n : Nat) (s : State) : State := goto (.t1 (n + linkHdr + linkTrl)) (linkEncapBody n s)

/-! ## Decapsulation (R205 to R208) -/

/-- The filter of `link_decap` on the frame in RXBUF: the accepted frame control, `none` where the frame is shorter than
header and trailer or the filter rejects it (R205, R206, R208). -/
def rxFilter (s : State) : Option Instr :=
  if (s.rxBuf.read 0).toNat < linkHdr + linkTrl then none else decodeFcRx (s.rxBuf.getLE16 1)

/-- The size of the link payload of the frame in RXBUF (R207). -/
def rxPayloadSize (s : State) : Nat := (s.rxBuf.read 0).toNat - (linkHdr + linkTrl)

/-- On acceptance the source address is cached (R207). -/
def acceptFrame (s : State) : State := { s with lastSrc := s.rxBuf.getLE16 8 }

/-- LINK_FC_FILTER: a received frame whose frame control passes the filter is accepted (R205, R206, R111). The bits
outside the mask do not affect acceptance. Step U2 of APP_UPDATE runs it. -/
def execLinkFcFilter (_pending _ackReq : Bool) (_reserved : BitVec 3) (_version : BitVec 2) (s : State) : Outcome :=
  .next (acceptFrame s)

/-! ## The commands -/

/-- LINK_INIT pan, addr (R210). -/
def execLinkInit (pan addr : Half) (s : State) : Outcome :=
  issueAlways (.linkInit pan addr) (fun t =>
    .next (finish .unit { t with panId := pan, localAddr := addr, linkReady := true })) s

/-- LINK_SET_DST addr (R211). -/
def execLinkSetDst (addr : Half) (s : State) : Outcome :=
  issue .link (.linkSetDst addr) (fun t => .next (finish .unit { t with dstAddr := addr })) s

/-- LINK_GET_SRC (R212). -/
def execLinkGetSrc (s : State) : Outcome :=
  issue .link .linkGetSrc (fun t => .next (finish (.half t.lastSrc) t)) s

/-- LINK_GET_TX_PACKET (R213). -/
def execLinkGetTxPacket (s : State) : Outcome :=
  issue .link .linkGetTxPacket (fun t => .next (finish (.txPacket txLinkOff linkMtu) t)) s

/-- LINK_PACKET_SEND n (R214). -/
def execLinkPacketSend (n : Byte) (s : State) : Outcome :=
  issue .link (.linkPacketSend n) (stepL1 n.toNat) s

/-- LINK_IS_PACKET_AVAILABLE (R215). -/
def execLinkIsPacketAvailable (s : State) : Outcome :=
  issue .link .linkIsPacketAvailable (fun t => .next (finish (.bool t.rxWaiting) t)) s

/-- Line 1 of LINK_GET_RX_PACKET (R216). -/
def stepLinkGet (s : State) : Outcome :=
  bif s.rxWaiting then
    match rxFilter s with
    | none => .next (finish (.rxPacket none) s)
    | some _ => .next (finish (.rxPacket (some (rxLinkOff, rxPayloadSize s))) (acceptFrame s))
  else .next (finish (.rxPacket none) s)

/-- LINK_GET_RX_PACKET (R216). -/
def execLinkGetRxPacket (s : State) : Outcome := issue .link .linkGetRxPacket stepLinkGet s

/-- LINK_DISMISS_RX_PACKET (R217). -/
def execLinkDismissRxPacket (s : State) : Outcome := issue .link .linkDismissRxPacket stepD1 s

end Sys2Proof.Machine
end

