-- ==== Sys2Proof/Machine/App.lean ====
section
/-! DEFINITION. APP (43_protocol.md): sending, the registry, the poll with its routing and slave walk, and the meanings of
the twelve APP commands and of the eight application frames. -/

namespace Sys2Proof.Machine

/-! ## Sending (R256) -/

/-- The four implemented command codes (R240). -/
def codeReadCmd : Byte := 0x01
def codeReadAns : Byte := 0x02
def codeWriteCmd : Byte := 0x03
def codeWriteAns : Byte := 0x04

/-- A1: the count check. -/
def stepA1 (cmd : Byte) (ep : Option Byte) (count : Nat) (s : State) : Outcome :=
  if count > maxCount cmd then .next (finish (.bool false) s) else .next (goto (.a2 cmd ep count) s)

/-- The header `app_encap(cmd, ep, count)` writes (R244). -/
def putAppHeader (cmd ep : Byte) (s : State) : State :=
  { s with txBuf := (s.txBuf.write txLinkOff cmd).write (txLinkOff + 1) ep }

/-- A2: encapsulate; an absent endpoint stands for the dispatch context as it is now (R256, R259, R260). -/
def stepA2 (cmd : Byte) (ep : Option Byte) (count : Nat) (s : State) : Outcome :=
  .next (goto (.l1 (appHdr + count * recSize cmd)) (putAppHeader cmd (ep.getD s.dispatchEp) s))

/-! ## Routing a received frame (R262, R263) -/

/-- The upcall record of a received frame (R106). -/
def upcallRecord (kind : UpcallKind) (handler : Option Nat) (ep : Byte) (count : Nat) : Upcall :=
  ⟨kind, handler, ep, rxRecordOff, count⟩

/-- Master routing: the callback if present, else the frame is dropped at U5 (R262). -/
def routeMaster (present : Bool) (kind : UpcallKind) (ep : Byte) (count : Nat) (s : State) : Outcome :=
  .next (goto (bif present then .u4 (upcallRecord kind none ep count) else .d1) s)

/-- Slave dispatch begins at the first entry (R263). -/
def routeSlave (kind : SlaveKind) (ep : Byte) (count : Nat) (s : State) : Outcome :=
  .next (goto (.sd1 kind 0 ep count) s)

/-- A reserved code is treated as unknown: the frame is dropped at U5 (R115, R245, R261). -/
def dropFrame (s : State) : Outcome := .next (goto .d1 s)

/-- READ_CMD (R241, R263): slave dispatch to the read callbacks. -/
def execReadCmd (ep : Byte) (records : List Half) (s : State) : Outcome := routeSlave .read ep records.length s

/-- READ_ANS (R241, R262): the master's read-answer callback. -/
def execReadAns (ep : Byte) (records : List PairRec) (s : State) : Outcome :=
  routeMaster s.cbReadAns .readAnsCb ep records.length s

/-- WRITE_CMD (R241, R263): slave dispatch to the write callbacks. -/
def execWriteCmd (ep : Byte) (records : List PairRec) (s : State) : Outcome := routeSlave .write ep records.length s

/-- WRITE_ANS (R241, R262): the master's write-answer callback. -/
def execWriteAns (ep : Byte) (records : List Half) (s : State) : Outcome :=
  routeMaster s.cbWriteAns .writeAnsCb ep records.length s

/-- LIST_CMD, reserved (R115). -/
def execListCmd (_ep : Byte) (_payload : List Byte) (s : State) : Outcome := dropFrame s

/-- LIST_ANS, reserved (R115). -/
def execListAns (_ep : Byte) (_payload : List Byte) (s : State) : Outcome := dropFrame s

/-- FIND_CMD, reserved (R115). -/
def execFindCmd (_ep : Byte) (_payload : List Byte) (s : State) : Outcome := dropFrame s

/-- FIND_ANS, reserved (R115). -/
def execFindAns (_ep : Byte) (_payload : List Byte) (s : State) : Outcome := dropFrame s

/-! ## The poll (R261 to R266) -/

/-- U1. -/
def stepU1 (s : State) : Outcome :=
  bif s.rxWaiting then .next (goto .u2 s) else .next (finish .unit s)

/-- U4: the master's upcall; it resumes at U5 (R262). -/
def stepU4 (u : Upcall) (s : State) : Outcome := upcall u .d1 s s

/-- SD1: the entry at `i` (R263). -/
def stepSD1 (kind : SlaveKind) (i : Nat) (ep : Byte) (count : Nat) (s : State) : Outcome :=
  match s.handlers[i]? with
  | none => .next (goto .d1 s)
  | some h =>
    if h.ep = ep ∧ hasCallback h kind then
      upcall (upcallRecord (.slave kind) (some i) ep count) (.sd2 kind i ep count) s { s with dispatchEp := ep }
    else .next (goto (.sd2 kind i ep count) s)

/-- SD2. -/
def stepSD2 (kind : SlaveKind) (i : Nat) (ep : Byte) (count : Nat) (s : State) : Outcome :=
  .next (goto (.sd1 kind (i + 1) ep count) s)

/-! ## The commands -/

/-- APP_INIT (R249). -/
def execAppInit (s : State) : Outcome :=
  issueAlways .appInit (fun t =>
    .next (finish .unit { t with cbReadAns := false, cbWriteAns := false, handlers := [], appReady := true })) s

/-- APP_SET_READ_ANS_CB present (R250, R103). -/
def execAppSetReadAnsCb (present : Byte) (s : State) : Outcome :=
  if presentOk present then
    issue .app (.appSetReadAnsCb present) (fun t => .next (finish .unit { t with cbReadAns := present == 1 })) s
  else raise .badOperand s

/-- APP_SET_WRITE_ANS_CB present (R251, R103). -/
def execAppSetWriteAnsCb (present : Byte) (s : State) : Outcome :=
  if presentOk present then
    issue .app (.appSetWriteAnsCb present) (fun t => .next (finish .unit { t with cbWriteAns := present == 1 })) s
  else raise .badOperand s

/-- APP_GET_READ_BUF (R252). -/
def execAppGetReadBuf (s : State) : Outcome :=
  issue .app .appGetReadBuf (fun t => .next (finish (.records txRecordOff (maxCount codeReadCmd)) t)) s

/-- APP_GET_WRITE_BUF (R253). -/
def execAppGetWriteBuf (s : State) : Outcome :=
  issue .app .appGetWriteBuf (fun t => .next (finish (.records txRecordOff (maxCount codeWriteCmd)) t)) s

/-- APP_MAX_COUNT cmd (R248). -/
def execAppMaxCount (cmd : Byte) (s : State) : Outcome :=
  issue .app (.appMaxCount cmd) (fun t => .next (finish (.byte (BitVec.ofNat 8 (maxCount cmd))) t)) s

/-- APP_SEND_READ_CMD ep, count (R254). -/
def execAppSendReadCmd (ep count : Byte) (s : State) : Outcome :=
  issue .app (.appSendReadCmd ep count) (stepA1 codeReadCmd (some ep) count.toNat) s

/-- APP_SEND_WRITE_CMD ep, count (R255). -/
def execAppSendWriteCmd (ep count : Byte) (s : State) : Outcome :=
  issue .app (.appSendWriteCmd ep count) (stepA1 codeWriteCmd (some ep) count.toNat) s

/-- Line 1 of APP_REGISTER_HANDLER (R258). -/
def stepRegister (h : Handler) (s : State) : Outcome :=
  if s.handlers.length = nHandlers s.cfg then .next (finish (.handler none) s)
  else .next (finish (.handler (some s.handlers.length)) { s with handlers := s.handlers ++ [h] })

/-- APP_REGISTER_HANDLER ep, flags (R258, R103). -/
def execAppRegisterHandler (ep flags : Byte) (s : State) : Outcome :=
  if flagsOk flags then issue .app (.appRegisterHandler ep flags) (stepRegister (handlerOf ep flags)) s
  else raise .badOperand s

/-- APP_SEND_READ_ANS count (R259). -/
def execAppSendReadAns (count : Byte) (s : State) : Outcome :=
  issue .app (.appSendReadAns count) (stepA1 codeReadAns none count.toNat) s

/-- APP_SEND_WRITE_ANS count (R260). -/
def execAppSendWriteAns (count : Byte) (s : State) : Outcome :=
  issue .app (.appSendWriteAns count) (stepA1 codeWriteAns none count.toNat) s

/-- APP_UPDATE (R261). -/
def execAppUpdate (s : State) : Outcome := issue .app .appUpdate stepU1 s

end Sys2Proof.Machine
end

