-- ==== Sys2Proof/Machine/HostPort.lean ====
section
/-! DEFINITION. The host-port commands (40_packet_interface.md R146 to R148, R151): buffer bytes and the return from an
upcall. None of them has a ready check (R302). -/

namespace Sys2Proof.Machine

/-- TXBUF_WRITE i, v (R146). -/
def execTxbufWrite (index value : Byte) (s : State) : Outcome :=
  if index.toNat ≥ txSize then raise .badIndex s
  else issueAlways (.txbufWrite index value) (fun t =>
    .next (finish .unit { t with txBuf := t.txBuf.write index.toNat value })) s

/-- TXBUF_READ i (R147). -/
def execTxbufRead (index : Byte) (s : State) : Outcome :=
  if index.toNat ≥ txSize then raise .badIndex s
  else issueAlways (.txbufRead index) (fun t => .next (finish (.byte (t.txBuf.read index.toNat)) t)) s

/-- RXBUF_READ i (R148). -/
def execRxbufRead (index : Byte) (s : State) : Outcome :=
  if index.toNat ≥ rxSize then raise .badIndex s
  else issueAlways (.rxbufRead index) (fun t => .next (finish (.byte (t.rxBuf.read index.toNat)) t)) s

/-- The top frame unmarked: it continues after its upcall (R151). -/
def resume (s : State) : State :=
  { s with frames := match s.frames with
    | [] => []
    | f :: rest => { f with upcall := none } :: rest }

/-- UPCALL_RETURN (R151): it acts on the top frame and has none of its own (log 20). -/
def execUpcallReturn (s : State) : Outcome :=
  match s.frames with
  | [] => raise .noUpcall s
  | f :: _ => if f.upcall.isSome then .next { resume s with result := some .unit } else raise .noUpcall s

end Sys2Proof.Machine
end

