-- ==== Sys2Proof/Machine/Dispatch.lean ====
section
/-! DEFINITION. One arm per constructor of Instr: the direct call of its meaning. -/

namespace Sys2Proof.Machine

def exec (i : Instr) (s : State) : Host.Outcome State Fault Refusal :=
  match i with
  | .radioInit => Sys2Proof.Machine.execRadioInit s
  | .radioGetTxPacket => Sys2Proof.Machine.execRadioGetTxPacket s
  | .radioPacketSend n => Sys2Proof.Machine.execRadioPacketSend n s
  | .radioIsPacketAvailable => Sys2Proof.Machine.execRadioIsPacketAvailable s
  | .radioGetRxPacket => Sys2Proof.Machine.execRadioGetRxPacket s
  | .radioDismissRxPacket => Sys2Proof.Machine.execRadioDismissRxPacket s
  | .linkInit pan addr => Sys2Proof.Machine.execLinkInit pan addr s
  | .linkSetDst addr => Sys2Proof.Machine.execLinkSetDst addr s
  | .linkGetSrc => Sys2Proof.Machine.execLinkGetSrc s
  | .linkGetTxPacket => Sys2Proof.Machine.execLinkGetTxPacket s
  | .linkPacketSend n => Sys2Proof.Machine.execLinkPacketSend n s
  | .linkIsPacketAvailable => Sys2Proof.Machine.execLinkIsPacketAvailable s
  | .linkGetRxPacket => Sys2Proof.Machine.execLinkGetRxPacket s
  | .linkDismissRxPacket => Sys2Proof.Machine.execLinkDismissRxPacket s
  | .appInit => Sys2Proof.Machine.execAppInit s
  | .appSetReadAnsCb present => Sys2Proof.Machine.execAppSetReadAnsCb present s
  | .appSetWriteAnsCb present => Sys2Proof.Machine.execAppSetWriteAnsCb present s
  | .appGetReadBuf => Sys2Proof.Machine.execAppGetReadBuf s
  | .appGetWriteBuf => Sys2Proof.Machine.execAppGetWriteBuf s
  | .appMaxCount cmd => Sys2Proof.Machine.execAppMaxCount cmd s
  | .appSendReadCmd ep count => Sys2Proof.Machine.execAppSendReadCmd ep count s
  | .appSendWriteCmd ep count => Sys2Proof.Machine.execAppSendWriteCmd ep count s
  | .appRegisterHandler ep flags => Sys2Proof.Machine.execAppRegisterHandler ep flags s
  | .appSendReadAns count => Sys2Proof.Machine.execAppSendReadAns count s
  | .appSendWriteAns count => Sys2Proof.Machine.execAppSendWriteAns count s
  | .appUpdate => Sys2Proof.Machine.execAppUpdate s
  | .txbufWrite index value => Sys2Proof.Machine.execTxbufWrite index value s
  | .txbufRead index => Sys2Proof.Machine.execTxbufRead index s
  | .rxbufRead index => Sys2Proof.Machine.execRxbufRead index s
  | .upcallReturn => Sys2Proof.Machine.execUpcallReturn s
  | .readCmd ep records => Sys2Proof.Machine.execReadCmd ep records s
  | .readAns ep records => Sys2Proof.Machine.execReadAns ep records s
  | .writeCmd ep records => Sys2Proof.Machine.execWriteCmd ep records s
  | .writeAns ep records => Sys2Proof.Machine.execWriteAns ep records s
  | .listCmd ep payload => Sys2Proof.Machine.execListCmd ep payload s
  | .listAns ep payload => Sys2Proof.Machine.execListAns ep payload s
  | .findCmd ep payload => Sys2Proof.Machine.execFindCmd ep payload s
  | .findAns ep payload => Sys2Proof.Machine.execFindAns ep payload s
  | .linkFcTx version => Sys2Proof.Machine.execLinkFcTx version s
  | .linkFcFilter pending ackReq reserved version => Sys2Proof.Machine.execLinkFcFilter pending ackReq reserved version s

end Sys2Proof.Machine
end

