-- ==== Sys2Proof/Machine/Fetch.lean ====
section
/-! DEFINITION. What the block does next: the running operation's micro-step (R31), the next host command (R149), a received
or transmitted frame's instruction (R2, R261 U2, R214 L2), or another agent's move (R12, R80). And the placing of one
instruction where the next step fetches it. -/

namespace Sys2Proof.Machine

/-- What a step is: an instruction to execute from a state, or a step without one. -/
inductive Fetch where
  | instr (i : Instr) (s : State)
  | done (o : Outcome)

/-- The next command on the host port (R100 to R104, R149): with no complete command there, the block waits. -/
def fetchCommand (s : State) : Fetch :=
  match decodeHost s.port with
  | .ok i rest => .instr i { s with port := rest, result := none }
  | .illegalOpcode rest => .done (raise .illegalOpcode { s with port := rest })
  | .badOperand rest => .done (raise .badOperand { s with port := rest })
  | .incomplete => .done (.next s)

/-- U2 (R261): a frame LINK rejects goes to U5; an accepted one is the application instruction in its payload, or only an
accepted frame control, which goes to U5. -/
def fetchFrame (s : State) : Fetch :=
  match rxFilter s with
  | none => .done (.next (goto .d1 s))
  | some accepted =>
    match decodeApp (s.rxBuf.slice rxLinkOff (rxPayloadSize s)) with
    | some i => .instr i (acceptFrame s)
    | none => .instr accepted (goto .d1 s)

/-- The micro-step at a label. L2 is the frame-control pattern's own step (R214, R201). -/
def fetchStep (pc : Pc) (s : State) : Fetch :=
  match pc with
  | .start => .done (.next s)
  | .i2 => .done (stepI2 s)
  | .i4 => .done (stepI4 s)
  | .ss1 use => .done (stepSS1 use s)
  | .ss2 use c => .done (stepSS2 use c s)
  | .t1 n => .done (stepT1 n s)
  | .t3 n => .done (stepT3 n s)
  | .t4 n => .done (stepT4 n s)
  | .t5 => .done (stepT5 s)
  | .t6 => .done (stepT6 s)
  | .t7 t0 => .done (stepT7 t0 s)
  | .t8 t0 => .done (stepT8 t0 s)
  | .t9 t0 => .done (stepT9 t0 s)
  | .t10 done => .done (stepT10 done s)
  | .t12 ok => .done (stepT12 ok s)
  | .d1 => .done (stepD1 s)
  | .d2 => .done (stepD2 s)
  | .d3 => .done (stepD3 s)
  | .l1 n => .done (stepL1 n s)
  | .l2 n => .instr (.linkFcTx s.cfg.fcVersion) (beforeFcTx n s)
  | .a2 cmd ep count => .done (stepA2 cmd ep count s)
  | .u2 => fetchFrame s
  | .u4 u => .done (stepU4 u s)
  | .sd1 kind i ep count => .done (stepSD1 kind i ep count s)
  | .sd2 kind i ep count => .done (stepSD2 kind i ep count s)

/-- The block's own next step: the running frame's micro-step, else the host's next command. -/
def fetch (s : State) : Fetch :=
  match s.frames with
  | [] => fetchCommand s
  | f :: _ => if f.upcall.isSome then fetchCommand s else fetchStep f.pc s

/-- The ISR takes its step, if the interrupt is enabled (R33). -/
def isrIfEnabled (s : State) : Outcome :=
  match s.irqEn with
  | true => isr s
  | false => .next s

/-- An agent's move (R80). -/
def fetchEvent (e : Event) (s : State) : Fetch :=
  match e with
  | .go => fetch s
  | .isr => .done (isrIfEnabled s)
  | .chip m => .done (.next (chipMove m s))
  | .tick ms => .done (.next (clockTick ms s))
  | .host bytes => .done (.next (hostPut bytes s))
  | .reset => .done (.next (resetEvent s))

/-- Take an event off the schedule. -/
def popEvent (rest : List Event) (s : State) : State := { s with sched := rest }

/-- The next step of a system whose run has not ended: the next event, or with none waiting the block's own step
(log 2). -/
def fetchLive (s : State) : Fetch :=
  match s.sched with
  | [] => fetch s
  | e :: rest => fetchEvent e (popEvent rest s)

/-- The next step of the whole system: after a fault only a reset event is a step (R301, R330). -/
def nextFetch (s : State) : Fetch :=
  match s.fault with
  | none => fetchLive s
  | some r =>
    match s.sched with
    | .reset :: rest => fetchEvent .reset (popEvent rest s)
    | _ => .done (.fault r)

/-! ## Placing an instruction for the next step (log 15) -/

/-- No other agent moves first, and the run has not ended. -/
def clearWay (s : State) : State := { s with sched := [], fault := none }

/-- A host command, where the host may issue it. -/
def placeCommand (bytes : List Byte) (s : State) : State :=
  { clearWay s with port := bytes, frames := if hostMayIssue s then s.frames else [] }

/-- A link frame in RXBUF, about to be decapsulated by APP_UPDATE. -/
def placeFrame (fc payload : List Byte) (s : State) : State :=
  { clearWay s with
    rxBuf := Buffer.ofFrame (BitVec.ofNat 8 (payload.length + linkHdr + linkTrl))
      (fc ++ (List.replicate 7 0 ++ (payload ++ [0, 0]))) s.rxBuf.draw
    frames := [⟨.appUpdate, .u2, none⟩] }

/-- An empty link frame about to be encapsulated with a frame version. -/
def placeEncap (version : BitVec 2) (s : State) : State :=
  { clearWay s with
    cfg := { s.cfg with fcVersion := version }
    frames := [⟨.linkPacketSend 0, .l2 0, none⟩] }

/-- The instruction of an opcode-table word, placed where its format arrives. -/
def placeWord (nbits w : Nat) (s : State) : State :=
  match decodeTableWord nbits w with
  | some (.linkFcTx version) => placeEncap version s
  | some i =>
    match i.source with
    | .app => placeFrame (bytes16 fcExpect) (tableBytes w tableAppSize) s
    | .fcRx | .fcTx => placeFrame (tableBytes w 2) [] s
    | .host => placeCommand (tableBytes w hostLongest) s
  | none => placeCommand (tableBytes w hostLongest) s

end Sys2Proof.Machine
end

