-- ==== Sys2Proof/Machine/Step.lean ====
section
/-! DEFINITION. One step of the system: what comes next, executed. -/

namespace Sys2Proof.Machine

/-- Execute what comes next: an instruction by `exec`; every other step is the outcome itself. -/
def execFetch : Fetch → Host.Outcome State Fault Refusal
  | .instr i t => exec i t
  | .done o => o

/-- One step. -/
def step (s : State) : Host.Outcome State Fault Refusal := execFetch (nextFetch s)

/-- The state with the instruction of an opcode-table word placed where the next step fetches it. -/
def State.withFetchWord (s : State) (nbits w : Nat) : State := placeWord nbits w s

end Sys2Proof.Machine
end

