-- ==== Sys2Proof/Safety.lean ====
section
/-! DEFINITION. What counts as a safe state and a well-behaved environment, in the terms the statements use: the invariants
of R31, R44, R46, R79, R180, and the chip premises CH2 and CH3 of R161 with the well-behaved chip of 95_test_vectors.md. -/

namespace Sys2Proof.Machine

/-! ## The sequencer -/

/-- The label of the micro-step the block runs next, if an operation is running (R31). -/
def runningAt (s : State) : Option Pc :=
  match s.frames with
  | [] => none
  | f :: _ => if f.upcall.isSome then none else some f.pc

/-- The block idle, waiting or running, with no other agent's move first and the run not ended. -/
def undisturbed (s : State) : Prop := s.sched = [] ∧ s.fault = none

/-- A suspended frame resumes at U5 or SD2 (R262, R263). -/
def resumesAt : Pc → Bool
  | .d1 | .sd2 _ _ _ _ => true
  | _ => false

/-- The stack discipline (R31, R46): every frame below the top one is suspended, a suspended frame resumes where R262 and
R263 say, and at most MAX_UPCALL_DEPTH frames are suspended. -/
def stackOk (s : State) : Prop :=
  (∀ f ∈ s.frames.tail, f.upcall.isSome) ∧
  (∀ f ∈ s.frames, f.upcall.isSome → resumesAt f.pc) ∧
  outstanding s ≤ maxUpcallDepth s.cfg

/-! ## Buffers -/

/-- The sizes an operation carries: a link payload at L2 fits the link MTU, a frame past T1 fits the radio MTU (R168, R214,
R218). -/
def sizesOk : Pc → Prop
  | .l2 n => n ≤ linkMtu
  | .ss1 (.transmit n) | .ss2 (.transmit n) _ | .t3 n | .t4 n => n ≤ radioMtu
  | _ => True

/-- Both buffers are in canonical form within their sizes (R70, R71), and every frame's sizes are in bounds. -/
def memoryOk (s : State) : Prop :=
  Memory.wf txSize s.txBuf.cells ∧ Memory.wf rxSize s.rxBuf.cells ∧ ∀ f ∈ s.frames, sizesOk f.pc

/-! ## The receive handshake (R180) -/

/-- R180, first invariant: a queued frame only beside a waiting one, except at the boundaries D1–D2 and D2–D3. -/
def slotOk (s : State) : Prop :=
  s.rxQueued = true → s.rxWaiting = true ∨ runningAt s = some .d2 ∨ runningAt s = some .d3

/-- Whether the running operation stands where the interrupt is masked. -/
def runsMasked (s : State) : Bool :=
  match runningAt s with
  | none => false
  | some pc => maskedAt pc

/-- R180, third invariant: after RADIO_INIT the interrupt is masked exactly inside T3 to T12 of a send and inside
RADIO_INIT. -/
def maskOk (s : State) : Prop := s.radioReady = true → (s.irqEn = false ↔ runsMasked s = true)

/-- The registry is within its capacity (R44). -/
def registryOk (s : State) : Prop := s.handlers.length ≤ nHandlers s.cfg

/-! ## Chip premises (R161) -/

/-- CH3 for the frame the chip holds. -/
def heldFrameOk : FrameBuffer → Prop
  | .received len bytes => len.toNat ≤ radioMtu ∧ bytes.length = len.toNat
  | .empty | .written _ _ => True

/-- CH3 for a coming event: a frame the chip receives has at most 127 bytes. -/
def eventOk : Event → Prop
  | .chip (.receive len bytes) => heldFrameOk (.received len bytes)
  | _ => True

/-- CH3 as a premise on a state and everything its environment will do. -/
def chipLengthsOk (s : State) : Prop := heldFrameOk s.chip.buffer ∧ ∀ e ∈ s.sched, eventOk e

/-! ## The well-behaved chip (95_test_vectors.md) -/

/-- The codes a script needs: a status at each target and an interrupt status that shows transmit-complete only. -/
structure ChipCodes where
  listen : Nat
  send : Nat
  txDone : Nat
deriving DecidableEq, Repr

/-- The codes mean what they say under the parameters. -/
def codesOk (p : Params) (c : ChipCodes) : Prop :=
  statusClass p c.listen = .listen ∧ statusClass p c.send = .send ∧ irqTxDone p c.txDone = true

/-- A well-behaved transmission seen from T2 with the chip at LISTEN: SEND one status read after its command, completion
with the given TRAC code in the first round of the wait, LISTEN one status read after its command. -/
def transmitScript (c : ChipCodes) (trac : Nat) : List Event :=
  [.go, .go, .chip (.status c.send), .go,
   .go, .go, .go, .chip (.irqStatus c.txDone), .chip (.irqLine true), .chip (.trac trac),
   .go, .go, .go, .go,
   .go, .go, .chip (.status c.listen), .go, .go]

/-- A well-behaved initialisation seen from I2: the chip reports LISTEN at the first status read. -/
def initScript (c : ChipCodes) : List Event := [.go, .chip (.status c.listen), .go, .go]

/-! ## What a statement says of a command -/

/-- A command of a sub-block answers the state `t` when the ready flags it needs are set, and otherwise raises
NOT_INITIALISED and does nothing else (R37). -/
def answersWhenReady (b : SubBlock) (i : Instr) (s t : State) : Prop :=
  (isReady s b = true → exec i s = .next t) ∧
  (isReady s b = false → exec i s = .next { s with fault := some .notInitialised })

/-- The sub-block whose ready flags a command needs: every RADIO_, LINK_ and APP_ command but the three INITs (R37). -/
def gateOf : Instr → Option SubBlock
  | .radioGetTxPacket | .radioPacketSend _ | .radioIsPacketAvailable | .radioGetRxPacket | .radioDismissRxPacket =>
    some .radio
  | .linkSetDst _ | .linkGetSrc | .linkGetTxPacket | .linkPacketSend _ | .linkIsPacketAvailable | .linkGetRxPacket
  | .linkDismissRxPacket => some .link
  | .appSetReadAnsCb _ | .appSetWriteAnsCb _ | .appGetReadBuf | .appGetWriteBuf | .appMaxCount _
  | .appSendReadCmd _ _ | .appSendWriteCmd _ _ | .appRegisterHandler _ _ | .appSendReadAns _ | .appSendWriteAns _
  | .appUpdate => some .app
  | .radioInit | .linkInit _ _ | .appInit | .txbufWrite _ _ | .txbufRead _ | .rxbufRead _ | .upcallReturn => none
  | .readCmd _ _ | .readAns _ _ | .writeCmd _ _ | .writeAns _ _ | .listCmd _ _ | .listAns _ _ | .findCmd _ _
  | .findAns _ _ | .linkFcTx _ | .linkFcFilter _ _ _ _ => none

/-- The host opcodes of R101. -/
def hostOpcodes : List Nat :=
  [0x01, 0x02, 0x03, 0x04, 0x05, 0x06, 0x10, 0x11, 0x12, 0x13, 0x14, 0x15, 0x16, 0x17] ++
  [0x20, 0x21, 0x22, 0x23, 0x24, 0x25, 0x26, 0x27, 0x28, 0x29, 0x2A, 0x2B, 0x30, 0x31, 0x32, 0x3F]

/-- `k` steps of the machine. -/
abbrev run (k : Nat) (s : State) : Outcome := Host.Core.run Sys2Proof.core k s

/-- The bytes of a link frame around a payload, in the order of R108, with the values R202 gives its fields. -/
def linkFrame (s : State) (payload : List Byte) : List Byte :=
  bytes16 (fcTx s.cfg.fcVersion) ++ [s.seq] ++ bytes16 s.panId ++ bytes16 s.dstAddr ++ bytes16 s.localAddr ++
    payload ++ [0, 0]

/-- The state after a well-behaved transmission of a frame of `n` bytes from `s` (R167 to R173, R78). -/
def transmitted (c : ChipCodes) (trac n : Nat) (frame : List Byte) (s : State) : State :=
  { s with
    irqEn := true
    txBuf := Buffer.drawn s.draws
    draws := s.draws + 1
    chip := { regs := ⟨c.listen, 0, false, trac⟩, buffer := .written (BitVec.ofNat 8 n) frame,
              command := some (cmdCode s.cfg .listen), triggers := s.chip.triggers + 1, resets := s.chip.resets }
    result := some (.bool (trac == s.cfg.tracSuccess))
    sched := [] }

/-- What a dismiss does that ends operation `op` (R178): from `t`, which is past D1 after `k` steps, D2 returns where
nothing is queued, and else D3 pulls the chip's frame or faults CHIP_LENGTH. `s` is the state before D1, without the
operation's frame. -/
def dismissesTo (k : Nat) (op : Instr) (t s : State) : Prop :=
  (s.rxQueued = false → run (k + 1) t = .next { s with rxWaiting := false, result := some .unit }) ∧
  (s.rxQueued = true →
    let len : Byte := (chipFrame s).1
    let bytes : List Byte := (chipFrame s).2
    let emptied : State := { s with chip := { s.chip with buffer := .empty }, draws := s.draws + 1 }
    (len.toNat ≤ 127 → ∃ u, run (k + 2) t = .next u ∧
      u = { emptied with
        rxWaiting := true, rxQueued := false, irqEn := true, result := some .unit, rxBuf := u.rxBuf,
        draws := s.draws + 2 } ∧
      u.rxBuf.read 0 = len ∧ bytes.length = len.toNat ∧
      ∀ (k : Nat) (h : k < bytes.length), u.rxBuf.read (k + 1) = bytes[k]) ∧
    (127 < len.toNat → run (k + 2) t = .next { emptied with
      rxWaiting := false, frames := ⟨op, .d3, none⟩ :: s.frames, fault := some .chipLength }))

/-- The upcalls the block presents in its next `k` steps, oldest first. -/
def upcallsIn : Nat → State → List Upcall
  | 0, _ => []
  | k + 1, s =>
    match step s with
    | .next t =>
      (if (runningAt s).isSome then (t.frames.head?.bind Frame.upcall).toList else []) ++ upcallsIn k t
    | _ => []

/-- Whether a registry entry is called for a command of this kind and endpoint (R263). -/
def isCalled (kind : SlaveKind) (ep : Byte) (h : Handler) : Bool := h.ep == ep && hasCallback h kind

/-- The records of the slave upcalls for a registry from position `i` on, in insertion order (R263, R265). -/
def slaveUpcalls (kind : SlaveKind) (ep : Byte) (count : Nat) : Nat → List Handler → List Upcall
  | _, [] => []
  | i, h :: rest =>
    (if isCalled kind ep h then [upcallRecord (.slave kind) (some i) ep count] else []) ++
      slaveUpcalls kind ep count (i + 1) rest

end Sys2Proof.Machine
end

