-- ==== Sys2Proof/Certificates/Slice0/Obligations.lean ====
section
/-! DEFINITION. The statements for the provers, each citing the rule of spec/ it formalises. A frame is said by the equation
of the whole next state: a field the equation does not name is unchanged. -/

open Sys2Proof Sys2Proof.Machine

/-! ## Decoding and encoding -/

/-- R101: the opcode alone fixes the command and its operand bytes; V1 of 95_test_vectors.md. The frame-control layout
is log 17. -/
def Obligations.SampleWordsDecode : Prop :=
  decodeHost [0x01] = .ok .radioInit [] ∧
  decodeHost [0x10, 0x34, 0x12, 0x01, 0x00] = .ok (.linkInit 0x1234 0x0001) [] ∧
  decodeHost [0x11, 0x02, 0x00] = .ok (.linkSetDst 0x0002) [] ∧
  decodeHost [0x14, 0x05] = .ok (.linkPacketSend 5) [] ∧
  decodeHost [0x27, 0x03, 0x02] = .ok (.appSendWriteCmd 3 2) [] ∧
  decodeHost [0x28, 0x03, 0x02] = .ok (.appRegisterHandler 3 2) [] ∧
  decodeHost [0x30, 0x7E, 0xAA] = .ok (.txbufWrite 126 0xAA) [] ∧
  decodeHost [0x3F] = .ok .upcallReturn [] ∧
  decodeApp [0x01, 0x03, 0x10, 0x00, 0x11, 0x00] = some (.readCmd 3 [0x0010, 0x0011]) ∧
  decodeApp [0x02, 0x09, 0x10, 0x00, 0xEF, 0xBE, 0xAD, 0xDE] = some (.readAns 9 [⟨0x0010, 0xDEADBEEF⟩]) ∧
  decodeFcRx 0x8861 = some (.linkFcFilter false true 0 0)

/-- R100, R101: a command's bytes, with anything after them, decode to the command and what came after, for every
well-formed host command. -/
def Obligations.HostCommandsRoundTrip : Prop :=
  ∀ (i : Instr) (rest : List Byte), i.source = .host → i.wf = true → decodeHost (encode i ++ rest) = .ok i rest

/-- R112 to R114, R245, R247, R109 to R111: the bytes of every well-formed application frame and frame-control pattern
decode to it, records and all (log 14). -/
def Obligations.WireFormatsRoundTrip : Prop :=
  ∀ i : Instr, i.source ≠ .host → i.wf = true → decodeFrom i.source (encode i) = some i

/-- R100, R101, R103, R112, R245: what decodes to a command is that command's bytes and the command is well-formed; what
decodes to an application frame is that frame's bytes, and is longer than its header. -/
def Obligations.DecodedInstructionIsItsEncoding : Prop :=
  (∀ (bytes rest : List Byte) (i : Instr), decodeHost bytes = .ok i rest →
    i.source = .host ∧ i.wf = true ∧ bytes = encode i ++ rest) ∧
  ∀ (bytes : List Byte) (i : Instr), decodeApp bytes = some i → i.source = .app ∧ bytes = encode i ∧ 2 < bytes.length

/-- R206, R111: the filter accepts exactly type data, security off, PAN-ID compression on and short addressing on both
sides (the bit positions are R109's, log 17). -/
def Obligations.FilterAcceptsExactlyTheDataPattern : Prop :=
  ∀ fc : Half, fcAccepted fc = true ↔
    fc.extractLsb' 0 3 = 0b001#3 ∧ fc.getLsbD 3 = false ∧ fc.getLsbD 6 = true ∧
    fc.extractLsb' 10 2 = 0b10#2 ∧ fc.extractLsb' 14 2 = 0b10#2

/-- R110, R111: the transmitted pattern has ack request and PAN-ID compression set, carries the version, and passes the
filter for every version (log 17). -/
def Obligations.TransmittedPatternPassesFilter : Prop :=
  ∀ v : BitVec 2, fcAccepted (fcTx v) = true ∧ (fcTx v).extractLsb' 12 2 = v ∧ (fcTx v).getLsbD 5 = true ∧
    (fcTx v).getLsbD 4 = false ∧ fcTx 0 = 0x8861

/-! ## What a step runs -/

/-- R149: where the host may issue a command and no other agent moves first, a step takes the decoded command off the
port, clears the result latch and executes it (log 2, log 5). -/
def Obligations.StepRunsDecodedCommand : Prop :=
  ∀ (s : State) (i : Instr) (rest : List Byte), undisturbed s → hostMayIssue s = true →
    decodeHost s.port = .ok i rest → step s = exec i { s with port := rest, result := none }

/-- R261 U2, R2: a step at U2 caches the source address of an accepted frame and executes the application frame in its
payload (log 14). -/
def Obligations.StepRunsReceivedFrame : Prop :=
  ∀ (s : State) (i : Instr), undisturbed s → runningAt s = some .u2 → (rxFilter s).isSome = true →
    decodeApp (s.rxBuf.slice 10 (rxPayloadSize s)) = some i →
    step s = exec i { s with lastSrc := s.rxBuf.getLE16 8 }

/-- R104: an opcode byte that is not in the table raises ILLEGAL_OPCODE and changes nothing but the port, from which its
byte is taken (log 5). -/
def Obligations.IllegalOpcodeFaults : Prop :=
  ∀ (s : State) (opcode : Byte) (rest : List Byte), undisturbed s → hostMayIssue s = true →
    s.port = opcode :: rest → opcode.toNat ∉ hostOpcodes →
    step s = .next { s with port := rest, fault := some .illegalOpcode }

/-- R103: the present and flags checks fail at decode, before anything else is checked or written; the command's bytes
are taken (log 5). -/
def Obligations.BadOperandFaults : Prop :=
  ∀ (s : State) (b ep : Byte) (rest : List Byte), undisturbed s → hostMayIssue s = true →
    (1 < b.toNat → s.port = 0x21 :: b :: rest → step s = .next { s with port := rest, fault := some .badOperand }) ∧
    (1 < b.toNat → s.port = 0x22 :: b :: rest → step s = .next { s with port := rest, fault := some .badOperand }) ∧
    (3 < b.toNat → s.port = 0x28 :: ep :: b :: rest →
      step s = .next { s with port := rest, fault := some .badOperand })

/-- R301: a fault ends the run; until a reset event every step answers it, whatever any agent would do (log 3). -/
def Obligations.FaultEndsTheRun : Prop :=
  ∀ (s : State) (r : Fault), s.fault = some r → (∀ rest, s.sched ≠ .reset :: rest) → ∀ k, run (k + 1) s = .fault r

/-- No instruction is refused and none stops outright: every one answers a next state in every state (faults are raised
into the state, R301, log 3). -/
def Obligations.EveryInstructionAnswersNext : Prop :=
  ∀ (i : Instr) (s : State), ∃ t, exec i s = .next t

/-- R37: a command whose ready flags are not all set raises NOT_INITIALISED and does nothing else. -/
def Obligations.NotInitialisedFaults : Prop :=
  ∀ (i : Instr) (b : SubBlock) (s : State), gateOf i = some b → i.wf = true → isReady s b = false →
    exec i s = .next { s with fault := some .notInitialised }

/-! ## Reset -/

/-- R331: the values the spec gives after reset; no byte of either buffer is defined. -/
def Obligations.ResetLeavesSpecValues : Prop :=
  let s := State.reset
  s.irqEn = false ∧ s.rxWaiting = false ∧ s.rxQueued = false ∧ s.radioReady = false ∧ s.linkReady = false ∧
  s.appReady = false ∧ s.seq = 0 ∧ s.cbReadAns = false ∧ s.cbWriteAns = false ∧ s.handlers = [] ∧ s.frames = [] ∧
  s.fault = none ∧ ∀ a, Memory.get? s.txBuf.cells a = none ∧ Memory.get? s.rxBuf.cells a = none

/-- R330: a reset event starts a new run from any state, faulted or running; the chip, the clock and the parameters are
not reset (log 16). -/
def Obligations.ResetEventStartsANewRun : Prop :=
  ∀ (s : State) (rest : List Event), s.sched = .reset :: rest → ∃ t, step s = .next t ∧
    t.irqEn = false ∧ t.rxWaiting = false ∧ t.rxQueued = false ∧ t.radioReady = false ∧ t.linkReady = false ∧
    t.appReady = false ∧ t.seq = 0 ∧ t.cbReadAns = false ∧ t.cbWriteAns = false ∧ t.handlers = [] ∧ t.frames = [] ∧
    t.fault = none ∧ t.chip = s.chip ∧ t.clock = s.clock ∧ t.cfg = s.cfg ∧ t.sched = rest ∧
    ∀ a, Memory.get? t.txBuf.cells a = none ∧ Memory.get? t.rxBuf.cells a = none

/-! ## RADIO -/

/-- R166, R176, R177: the three queries answer and change nothing; their encodings. -/
def Obligations.RadioQueriesAnswer : Prop :=
  ∀ s : State,
    answersWhenReady .radio .radioGetTxPacket s { s with result := some (.txPacket 0 127) } ∧
    answersWhenReady .radio .radioIsPacketAvailable s { s with result := some (.bool s.rxWaiting) } ∧
    answersWhenReady .radio .radioGetRxPacket s
      { s with result := some (.rxPacket (bif s.rxWaiting then some (1, (s.rxBuf.read 0).toNat) else none)) } ∧
    encode .radioGetTxPacket = [0x02] ∧ encode .radioIsPacketAvailable = [0x04] ∧ encode .radioGetRxPacket = [0x05]

/-- R181: RADIO_INIT clears the flags with the interrupt masked, pulses the chip's reset line, and with a chip that then
reports LISTEN ends with the radio ready and the interrupt enabled (log 2, log 11, log 18). -/
def Obligations.RadioInitCompletes : Prop :=
  ∀ (s : State) (c : ChipCodes), s.fault = none → statusClass s.cfg c.listen = .listen → s.sched = initScript c →
    ∃ t u, exec .radioInit s = .next t ∧ t.irqEn = false ∧ t.rxWaiting = false ∧ t.rxQueued = false ∧
      run 4 t = .next u ∧
      u = { s with
        irqEn := true, rxWaiting := false, rxQueued := false, radioReady := true, sched := [],
        result := some .unit, draws := s.draws + 1,
        chip := { s.chip with
          regs := { Config.freeRegs s.draws with status := c.listen }, buffer := .empty, resets := s.chip.resets + 1 } }

/-- R168, R214, R256: a radio payload over 127 bytes, a link payload over 116 and a record count over 19 are refused
with no chip access and nothing changed, the sequence number included. -/
def Obligations.OversizedSendsRejected : Prop :=
  ∀ (s : State) (n ep : Byte),
    let refused : State := { s with result := some (.bool false) }
    (127 < n.toNat → answersWhenReady .radio (.radioPacketSend n) s refused) ∧
    (116 < n.toNat → answersWhenReady .link (.linkPacketSend n) s refused) ∧
    (19 < n.toNat →
      answersWhenReady .app (.appSendReadCmd ep n) s refused ∧ answersWhenReady .app (.appSendWriteCmd ep n) s refused ∧
      answersWhenReady .app (.appSendReadAns n) s refused ∧ answersWhenReady .app (.appSendWriteAns n) s refused)

/-- R167 to R173: with a well-behaved chip a send of up to 127 bytes hands the chip the length and the TXBUF bytes,
answers whether TRAC is TRAC_SUCCESS, leaves the chip at LISTEN, the interrupt enabled and TXBUF undefined (log 2, log
9, log 18). -/
def Obligations.RadioSendCompletes : Prop :=
  ∀ (s : State) (n : Byte) (c : ChipCodes) (trac : Nat), isReady s .radio = true → s.fault = none → n.toNat ≤ 127 →
    codesOk s.cfg c → statusClass s.cfg s.chip.regs.status = .listen → s.sched = transmitScript c trac →
    ∃ t, exec (.radioPacketSend n) s = .next t ∧
      run 19 t = .next (transmitted c trac n.toNat (s.txBuf.slice 0 n.toNat) s)

/-- R164: what one status read of `set_state` decides, for each class, and that its command goes to the chip; nothing of
the block's state but the sequencer is written. -/
def Obligations.SetStateFollowsTheTable : Prop :=
  ∀ (s : State) (use : SetState) (cmd : ChipCmd), undisturbed s →
    (runningAt s = some (.ss1 use) →
      step s = .next (goto
        (match statusClass s.cfg s.chip.regs.status, setStateTarget use with
          | .listen, .listen => setStateNext use
          | .send, .send => setStateNext use
          | .busy, _ => .ss1 use
          | .other, _ => .ss2 use .recover
          | .idle, .listen => .ss2 use .listen
          | .send, .listen => .ss2 use .listen
          | .idle, .send => .ss2 use .send
          | .listen, .send => .ss2 use .send) s)) ∧
    (runningAt s = some (.ss2 use cmd) →
      step s = .next (goto (.ss1 use)
        { s with chip := { s.chip with command := some (cmdCode s.cfg cmd) } }))

/-- R165: while the chip reports BUSY, `set_state` spins for ever: no number of steps leaves SS1. -/
def Obligations.SetStateSpinsWhileBusy : Prop :=
  ∀ (s : State) (use : SetState) (k : Nat), undisturbed s → runningAt s = some (.ss1 use) →
    statusClass s.cfg s.chip.regs.status = .busy → run k s = .next s

/-- R171: the wait starts at T6 with the clock read there. A round of it reads the line; with the line high it reads, and so
clears, the interrupt status, which ends the wait if it shows transmit-complete and is discarded otherwise; then the wait
ends exactly when at least 50 ms have passed since its start, modulo the counter's width. That a read leaves the register 0
and the line low is log 9. -/
def Obligations.WaitRoundFollowsItsSteps : Prop :=
  ∀ s : State, undisturbed s →
    (runningAt s = some .t6 → step s = .next (goto (.t7 (s.clock % 2 ^ s.cfg.msWidth)) s)) ∧
    ∀ t0 : Nat, runningAt s = some (.t7 t0) →
      let clockCheck : Pc :=
        if 50 ≤ ((s.clock % 2 ^ s.cfg.msWidth : Nat) - (t0 : Int)) % ((2 ^ s.cfg.msWidth : Nat) : Int)
          then .t10 false else .t7 t0
      let cleared : State :=
        { s with chip := { s.chip with regs := { s.chip.regs with irqStatus := 0, irqLine := false } } }
      (s.chip.regs.irqLine = false → run 2 s = .next (goto clockCheck s)) ∧
      (s.chip.regs.irqLine = true →
        (irqTxDone s.cfg s.chip.regs.irqStatus = true → run 2 s = .next (goto (.t10 true) cleared)) ∧
        (irqTxDone s.cfg s.chip.regs.irqStatus = false → run 3 s = .next (goto clockCheck cleared)))

/-- R172, R173, R174, R78: after a timeout the result is false whatever TRAC holds. A chip at SEND is given CMD_LISTEN and
then read at LISTEN, a chip already at LISTEN is given no command; the interrupt stays masked at every boundary up to T12,
which unmasks it and makes every TXBUF byte undefined (log 2, log 18). -/
def Obligations.TimedOutSendAnswersFalse : Prop :=
  ∀ s : State, s.fault = none → s.irqEn = false → runningAt s = some (.t10 false) →
    let ended : State := { s with
      frames := s.frames.tail, irqEn := true, txBuf := Buffer.drawn s.draws, draws := s.draws + 1,
      result := some (.bool false), sched := [] }
    (∀ listen : Nat, statusClass s.cfg s.chip.regs.status = .send → statusClass s.cfg listen = .listen →
      s.sched = [.go, .go, .go, .chip (.status listen), .go, .go] →
      (∀ k, k ≤ 5 → ∃ t, run k s = .next t ∧ t.irqEn = false) ∧
      (∃ t, run 5 s = .next t ∧ runningAt t = some (.t12 false) ∧
        statusClass t.cfg t.chip.regs.status = .listen ∧ t.chip.command = some (cmdCode s.cfg .listen)) ∧
      run 6 s = .next { ended with chip :=
        { s.chip with regs := { s.chip.regs with status := listen }, command := some (cmdCode s.cfg .listen) } }) ∧
    (statusClass s.cfg s.chip.regs.status = .listen → s.sched = [] →
      (∀ k, k ≤ 2 → ∃ t, run k s = .next t ∧ t.irqEn = false) ∧
      (∃ t, run 2 s = .next t ∧ runningAt t = some (.t12 false) ∧ t.chip = s.chip) ∧
      run 3 s = .next ended)

/-- R175, R33: the ISR takes no step while the interrupt is masked. With it enabled, its four cases: no reception-
complete; a slot already waiting, where the frame stays in the chip; a frame of at most 127 bytes pulled into an empty
slot; a longer length, which faults and leaves the block's other state. What a read leaves in the chip is log 9; the
frame read where the chip holds none is log 10. -/
def Obligations.IsrFollowsItsCases : Prop :=
  ∀ (s : State) (rest : List Event), s.fault = none → s.sched = .isr :: rest →
    let len : Byte := (chipFrame s).1
    let bytes : List Byte := (chipFrame s).2
    let quiet : State :=
      { s with sched := rest, chip := { s.chip with regs := { s.chip.regs with irqStatus := 0, irqLine := false } } }
    let released : State := { quiet with chip := { quiet.chip with buffer := .empty }, draws := s.draws + 1 }
    (s.irqEn = false → step s = .next { s with sched := rest }) ∧
    (s.irqEn = true →
      (irqRxDone s.cfg s.chip.regs.irqStatus = false → step s = .next quiet) ∧
      (irqRxDone s.cfg s.chip.regs.irqStatus = true → s.rxWaiting = true →
        step s = .next { quiet with rxQueued := true }) ∧
      (irqRxDone s.cfg s.chip.regs.irqStatus = true → s.rxWaiting = false →
        (len.toNat ≤ 127 → ∃ t, step s = .next t ∧
          t = { released with rxWaiting := true, rxBuf := t.rxBuf, draws := s.draws + 2 } ∧
          t.rxBuf.read 0 = len ∧ bytes.length = len.toNat ∧
          ∀ (k : Nat) (h : k < bytes.length), t.rxBuf.read (k + 1) = bytes[k]) ∧
        (127 < len.toNat → step s = .next { released with fault := some .chipLength })))

/-- R160, R161 CH2, CH3: a held frame of as many bytes as its length says is what `ChipReadFrame` answers; whatever it
answers has as many bytes as its length says, and with no frame held the length is at most 127 (log 10). -/
def Obligations.ChipFrameIsTheHeldFrame : Prop :=
  ∀ s : State,
    (chipFrame s).2.length = (chipFrame s).1.toNat ∧
    (∀ (len : Byte) (bytes : List Byte), s.chip.buffer = .received len bytes → bytes.length = len.toNat →
      chipFrame s = (len, bytes)) ∧
    ((∀ (len : Byte) (bytes : List Byte), s.chip.buffer ≠ .received len bytes) → (chipFrame s).1.toNat ≤ 127)

/-- R178, R217: a dismiss with nothing queued releases the slot and returns. With a frame queued it pulls it into RXBUF
as the waiting one and leaves the interrupt enabled, with no new interrupt, or faults CHIP_LENGTH with only D1's write
done. Both dismiss commands do; their encodings. The frame read where the chip holds none is log 10. -/
def Obligations.DismissFollowsItsSteps : Prop :=
  ∀ (s : State) (i : Instr) (b : SubBlock) (opcode : Byte),
    i = .radioDismissRxPacket ∧ b = .radio ∧ opcode = 0x06 ∨ i = .linkDismissRxPacket ∧ b = .link ∧ opcode = 0x17 →
    encode i = [opcode] ∧ (∀ rest : List Byte, decodeHost (opcode :: rest) = .ok i rest) ∧
    (isReady s b = false → exec i s = .next { s with fault := some .notInitialised }) ∧
    (undisturbed s → isReady s b = true → ∃ t, exec i s = .next t ∧ dismissesTo 0 i t s)

/-- R178, R261 U5, R266: D1 to D3 of whatever operation runs at that label, an APP_UPDATE after its upcalls as much as a
dismiss command (log 10). -/
def Obligations.RunningDismissFollowsItsSteps : Prop :=
  ∀ (s : State) (f : Frame) (rest : List Frame), undisturbed s → s.frames = f :: rest → f.upcall = none → f.pc = .d1 →
    step s = .next { s with rxWaiting := false, frames := { f with pc := .d2 } :: rest } ∧
    dismissesTo 1 f.op s { s with frames := rest }

/-! ## LINK -/

/-- R210 to R213, R215: LINK_INIT, LINK_SET_DST and the three queries, each in one micro-step; their encodings. -/
def Obligations.LinkSettingsAndQueries : Prop :=
  ∀ (s : State) (pan addr : Half),
    exec (.linkInit pan addr) s =
      .next { s with panId := pan, localAddr := addr, linkReady := true, result := some .unit } ∧
    answersWhenReady .link (.linkSetDst addr) s { s with dstAddr := addr, result := some .unit } ∧
    answersWhenReady .link .linkGetSrc s { s with result := some (.half s.lastSrc) } ∧
    answersWhenReady .link .linkGetTxPacket s { s with result := some (.txPacket 9 116) } ∧
    answersWhenReady .link .linkIsPacketAvailable s { s with result := some (.bool s.rxWaiting) } ∧
    encode (.linkInit pan addr) = 0x10 :: (bytes16 pan ++ bytes16 addr) ∧ encode (.linkSetDst addr) = 0x11 :: bytes16 addr ∧
    encode .linkGetSrc = [0x12] ∧ encode .linkGetTxPacket = [0x13] ∧ encode .linkIsPacketAvailable = [0x15]

/-- R216, R205, R207, R208: LINK_GET_RX_PACKET answers the payload slice and caches the source address exactly when a
frame waits, is at least 11 bytes long and passes the filter; otherwise it answers none and changes nothing. -/
def Obligations.LinkGetValidatesTheFrame : Prop :=
  ∀ s : State,
    answersWhenReady .link .linkGetRxPacket s
      (if s.rxWaiting = true ∧ 11 ≤ (s.rxBuf.read 0).toNat ∧ s.rxBuf.getLE16 1 &&& fcMask = fcExpect then
        { s with
          lastSrc := s.rxBuf.getLE16 8
          result := some (.rxPacket (some (10, (s.rxBuf.read 0).toNat - 11))) }
      else { s with result := some (.rxPacket none) }) ∧
    encode .linkGetRxPacket = [0x16]

/-- R201 to R204: step L2 of a send of `n` payload bytes writes the nine header bytes and the two trailer bytes, leaves
every other TXBUF byte, advances the sequence number modulo 256, and hands `n + 11` to the radio. -/
def Obligations.LinkEncapWritesHeaderAndTrailer : Prop :=
  ∀ (s : State) (n : Nat), undisturbed s → runningAt s = some (.l2 n) →
    ∃ t, step s = .next t ∧
      t = goto (.t1 (n + 11)) { s with txBuf := t.txBuf, seq := s.seq + 1 } ∧
      t.txBuf.getLE16 0 = fcTx s.cfg.fcVersion ∧
      t.txBuf.read 2 = s.seq ∧ t.txBuf.getLE16 3 = s.panId ∧ t.txBuf.getLE16 5 = s.dstAddr ∧
      t.txBuf.getLE16 7 = s.localAddr ∧ t.txBuf.read (9 + n) = 0 ∧ t.txBuf.read (10 + n) = 0 ∧
      ∀ a, 9 ≤ a → a ≠ 9 + n → a ≠ 10 + n → t.txBuf.read a = s.txBuf.read a

/-- R214, R201, R108: with a well-behaved chip a link send hands the radio the framed payload, answers the radio's
result and advances the sequence number once, whatever that result (log 2, log 9, log 18). -/
def Obligations.LinkSendCompletes : Prop :=
  ∀ (s : State) (n : Byte) (c : ChipCodes) (trac : Nat), isReady s .link = true → s.fault = none → n.toNat ≤ 116 →
    codesOk s.cfg c → statusClass s.cfg s.chip.regs.status = .listen →
    s.sched = [.go, .go] ++ transmitScript c trac →
    ∃ t, exec (.linkPacketSend n) s = .next t ∧
      run 21 t = .next { transmitted c trac (n.toNat + 11) (linkFrame s (s.txBuf.slice 9 n.toNat)) s with
        seq := s.seq + 1 }

/-- R110, R201, R207: the two frame-control patterns as instructions: the transmitted one is written at TXBUF 0 and 1
and nowhere else; the accepted one caches the source address (log 14, log 24). -/
def Obligations.FrameControlPatternsAct : Prop :=
  ∀ (s : State) (v : BitVec 2) (p a : Bool) (r : BitVec 3),
    (∃ t, exec (.linkFcTx v) s = .next t ∧ t = { s with txBuf := t.txBuf } ∧ t.txBuf.getLE16 0 = fcTx v ∧
      ∀ i, 2 ≤ i → t.txBuf.read i = s.txBuf.read i) ∧
    exec (.linkFcFilter p a r v) s = .next { s with lastSrc := s.rxBuf.getLE16 8 }

/-! ## APP -/

/-- R243, R248: 19 records for the four implemented codes, none for any other. -/
def Obligations.MaxCountIsNineteenOrZero : Prop :=
  ∀ (s : State) (cmd : Byte),
    answersWhenReady .app (.appMaxCount cmd) s
      { s with result := some (.byte (if 1 ≤ cmd.toNat ∧ cmd.toNat ≤ 4 then 19 else 0)) } ∧
    encode (.appMaxCount cmd) = [0x25, cmd]

/-- R249, R252, R253, R250, R251: APP_INIT, the record-buffer accessors and the two callback switches. -/
def Obligations.AppSettingsAndQueries : Prop :=
  ∀ s : State,
    exec .appInit s =
      .next { s with cbReadAns := false, cbWriteAns := false, handlers := [], appReady := true, result := some .unit } ∧
    answersWhenReady .app .appGetReadBuf s { s with result := some (.records 11 19) } ∧
    answersWhenReady .app .appGetWriteBuf s { s with result := some (.records 11 19) } ∧
    answersWhenReady .app (.appSetReadAnsCb 0) s { s with cbReadAns := false, result := some .unit } ∧
    answersWhenReady .app (.appSetReadAnsCb 1) s { s with cbReadAns := true, result := some .unit } ∧
    answersWhenReady .app (.appSetWriteAnsCb 0) s { s with cbWriteAns := false, result := some .unit } ∧
    answersWhenReady .app (.appSetWriteAnsCb 1) s { s with cbWriteAns := true, result := some .unit } ∧
    encode .appInit = [0x20] ∧ encode .appGetReadBuf = [0x23] ∧ encode .appGetWriteBuf = [0x24] ∧
    ∀ present : Byte,
      (1 < present.toNat → exec (.appSetReadAnsCb present) s = .next { s with fault := some .badOperand } ∧
        exec (.appSetWriteAnsCb present) s = .next { s with fault := some .badOperand }) ∧
      encode (.appSetReadAnsCb present) = [0x21, present] ∧ encode (.appSetWriteAnsCb present) = [0x22, present]

/-- R258: a registration appends at the end and answers its position, or none where the registry is full; flags with a
bit above bit 1 are a bad operand. -/
def Obligations.RegisterAppendsOrAnswersNone : Prop :=
  ∀ (s : State) (ep flags : Byte),
    (flags.toNat ≤ 3 →
      answersWhenReady .app (.appRegisterHandler ep flags) s
        (if s.handlers.length = nHandlers s.cfg then { s with result := some (.handler none) }
        else { s with
          handlers := s.handlers ++ [⟨ep, flags.getLsbD 0, flags.getLsbD 1⟩]
          result := some (.handler (some s.handlers.length)) })) ∧
    (3 < flags.toNat → exec (.appRegisterHandler ep flags) s = .next { s with fault := some .badOperand }) ∧
    encode (.appRegisterHandler ep flags) = [0x28, ep, flags]

/-- R254 to R256, R259, R260, R244: with a well-behaved chip each of the four sends hands the radio the link frame
around the code, the endpoint (the operand, or the dispatch context for an answer) and the host's records (log 2, log 9,
log 18). -/
def Obligations.AppSendsComplete : Prop :=
  ∀ (s : State) (i : Instr) (cmd ep count : Byte) (size : Nat) (c : ChipCodes) (trac : Nat),
    (i = .appSendReadCmd ep count ∧ cmd = 0x01 ∧ size = 2 ∨
      i = .appSendWriteCmd ep count ∧ cmd = 0x03 ∧ size = 6 ∨
      i = .appSendReadAns count ∧ cmd = 0x02 ∧ size = 6 ∧ ep = s.dispatchEp ∨
      i = .appSendWriteAns count ∧ cmd = 0x04 ∧ size = 2 ∧ ep = s.dispatchEp) →
    isReady s .app = true → s.fault = none → count.toNat ≤ 19 → codesOk s.cfg c →
    statusClass s.cfg s.chip.regs.status = .listen →
    s.sched = [.go, .go, .go, .go] ++ transmitScript c trac →
    ∃ t, exec i s = .next t ∧
      run 23 t = .next { transmitted c trac (count.toNat * size + 13)
        (linkFrame s (cmd :: ep :: s.txBuf.slice 11 (count.toNat * size))) s with seq := s.seq + 1 }

/-- R261, R266, R178: with no frame waiting the poll returns at once, with no dismiss; a waiting frame that LINK rejects, or
whose payload is no application frame, is dismissed once with no upcall, whether a frame is queued or not, and an accepted
one's source address is cached (log 10). -/
def Obligations.UpdateWithoutUpcallCompletes : Prop :=
  ∀ s : State,
    (s.rxWaiting = false → answersWhenReady .app .appUpdate s { s with result := some .unit }) ∧
    (undisturbed s → isReady s .app = true → s.rxWaiting = true →
      (rxFilter s = none → ∃ t, exec .appUpdate s = .next t ∧ dismissesTo 2 .appUpdate t s) ∧
      (rxFilter s ≠ none → decodeApp (s.rxBuf.slice 10 (rxPayloadSize s)) = none →
        ∃ t, exec .appUpdate s = .next t ∧ dismissesTo 2 .appUpdate t { s with lastSrc := s.rxBuf.getLE16 8 }))

/-- R261, R263: a received command is presented to the host at the first entry, at any position, that has its endpoint and
the callback of its kind, with the endpoint in the dispatch context (log 21). -/
def Obligations.UpdatePresentsSlaveUpcall : Prop :=
  ∀ (s : State) (i : Instr) (kind : SlaveKind) (ep : Byte) (count : Nat) (before after : List Handler) (h : Handler),
    (∃ records, i = .readCmd ep records ∧ kind = .read ∧ count = records.length) ∨
      (∃ records, i = .writeCmd ep records ∧ kind = .write ∧ count = records.length) →
    undisturbed s → isReady s .app = true → s.rxWaiting = true → (rxFilter s).isSome = true →
    decodeApp (s.rxBuf.slice 10 (rxPayloadSize s)) = some i →
    s.handlers = before ++ h :: after → (∀ e ∈ before, isCalled kind ep e = false) → isCalled kind ep h = true →
    outstanding s ≠ maxUpcallDepth s.cfg →
    ∃ t, exec .appUpdate s = .next t ∧
      run (2 * before.length + 2) t = .next { s with
        lastSrc := s.rxBuf.getLE16 8, dispatchEp := ep,
        frames := ⟨.appUpdate, .sd2 kind before.length ep count,
          some ⟨.slave kind, some before.length, ep, 12, count⟩⟩ :: s.frames }

/-- R115, R261: a reserved code is dropped: the poll goes on to its dismiss (log 14, log 24). -/
def Obligations.ReservedCodesAreDropped : Prop :=
  ∀ (s : State) (ep : Byte) (payload : List Byte),
    exec (.listCmd ep payload) s = .next (goto .d1 s) ∧ exec (.listAns ep payload) s = .next (goto .d1 s) ∧
    exec (.findCmd ep payload) s = .next (goto .d1 s) ∧ exec (.findAns ep payload) s = .next (goto .d1 s)

/-- R263: a received command starts the walk at entry 0 with the callback of its kind. SD1: past the end to the dismiss;
a match writes the dispatch context and upcalls, or faults UPCALL_DEPTH and writes nothing else; any other entry is
skipped. SD2: the next entry. That a fault at SD1 leaves the dispatch context is log 21. -/
def Obligations.SlaveDispatchFollowsTheWalk : Prop :=
  ∀ (s : State) (ep : Byte),
    (∀ addrs : List Half, exec (.readCmd ep addrs) s = .next (goto (.sd1 .read 0 ep addrs.length) s)) ∧
    (∀ pairs : List PairRec, exec (.writeCmd ep pairs) s = .next (goto (.sd1 .write 0 ep pairs.length) s)) ∧
    ∀ (f : Frame) (rest : List Frame) (kind : SlaveKind) (i count : Nat),
      undisturbed s → s.frames = f :: rest → f.upcall = none →
      (f.pc = .sd1 kind i ep count →
        (s.handlers.length ≤ i → step s = .next { s with frames := { f with pc := .d1 } :: rest }) ∧
        (∀ h, s.handlers[i]? = some h →
          (isCalled kind ep h = false →
            step s = .next { s with frames := { f with pc := .sd2 kind i ep count } :: rest }) ∧
          (isCalled kind ep h = true → outstanding s = maxUpcallDepth s.cfg →
            step s = .next { s with fault := some .upcallDepth }) ∧
          (isCalled kind ep h = true → outstanding s ≠ maxUpcallDepth s.cfg →
            step s = .next { s with
              dispatchEp := ep,
              frames := ⟨f.op, .sd2 kind i ep count, some ⟨.slave kind, some i, ep, 12, count⟩⟩ :: rest }))) ∧
      (f.pc = .sd2 kind i ep count →
        step s = .next { s with frames := { f with pc := .sd1 kind (i + 1) ep count } :: rest })

/-- R262, R150: a received answer goes to the callback of its kind if that is present and else to the dismiss; the
upcall is presented and resumes at the dismiss, or faults UPCALL_DEPTH. -/
def Obligations.MasterRoutingFollowsTheRule : Prop :=
  ∀ (s : State) (ep : Byte),
    (∀ pairs : List PairRec, exec (.readAns ep pairs) s =
      .next (goto (bif s.cbReadAns then .u4 ⟨.readAnsCb, none, ep, 12, pairs.length⟩ else .d1) s)) ∧
    (∀ addrs : List Half, exec (.writeAns ep addrs) s =
      .next (goto (bif s.cbWriteAns then .u4 ⟨.writeAnsCb, none, ep, 12, addrs.length⟩ else .d1) s)) ∧
    ∀ (f : Frame) (rest : List Frame) (u : Upcall), undisturbed s → s.frames = f :: rest → f.upcall = none →
      f.pc = .u4 u →
      (outstanding s = maxUpcallDepth s.cfg → step s = .next { s with fault := some .upcallDepth }) ∧
      (outstanding s ≠ maxUpcallDepth s.cfg → step s = .next { s with frames := ⟨f.op, .d1, some u⟩ :: rest })

/-- R265: with a host that returns from each upcall at once, one inbound command makes exactly one upcall per entry with
its endpoint and callback, in registry order, and then goes on to the dismiss. -/
def Obligations.SlaveWalkCallsEveryMatch : Prop :=
  ∀ (s : State) (f : Frame) (rest : List Frame) (kind : SlaveKind) (ep : Byte) (count : Nat),
    undisturbed s → s.frames = f :: rest → f.upcall = none → f.pc = .sd1 kind 0 ep count →
    outstanding s < maxUpcallDepth s.cfg →
    let calls := slaveUpcalls kind ep count 0 s.handlers
    s.port = List.replicate calls.length 0x3F →
    upcallsIn (2 * s.handlers.length + calls.length + 1) s = calls ∧
    ∃ t, run (2 * s.handlers.length + calls.length + 1) s = .next t ∧ runningAt t = some .d1

/-! ## The host port -/

/-- R151: UPCALL_RETURN unmarks a suspended top frame, which keeps its next micro-step, and answers unit; with none it
raises NO_UPCALL. -/
def Obligations.UpcallReturnResumes : Prop :=
  ∀ s : State,
    (∀ (f : Frame) (rest : List Frame), s.frames = f :: rest → f.upcall ≠ none →
      exec .upcallReturn s = .next { s with frames := { f with upcall := none } :: rest, result := some .unit }) ∧
    ((∀ (f : Frame) (rest : List Frame), s.frames = f :: rest → f.upcall = none) →
      exec .upcallReturn s = .next { s with fault := some .noUpcall }) ∧
    encode .upcallReturn = [0x3F]

/-- R146 to R148: the buffer commands, ready or not: a write sets one byte and no other, a read answers the byte and
changes nothing; an index past the end raises BAD_INDEX and does nothing else. -/
def Obligations.BufferCommandsAct : Prop :=
  ∀ (s : State) (i v : Byte),
    (i.toNat ≤ 126 →
      (∃ t, exec (.txbufWrite i v) s = .next t ∧ t = { s with txBuf := t.txBuf, result := some .unit } ∧
        t.txBuf.read i.toNat = v ∧ ∀ a, a ≠ i.toNat → t.txBuf.read a = s.txBuf.read a) ∧
      exec (.txbufRead i) s = .next { s with result := some (.byte (s.txBuf.read i.toNat)) }) ∧
    (126 < i.toNat → exec (.txbufWrite i v) s = .next { s with fault := some .badIndex } ∧
      exec (.txbufRead i) s = .next { s with fault := some .badIndex }) ∧
    (i.toNat ≤ 127 → exec (.rxbufRead i) s = .next { s with result := some (.byte (s.rxBuf.read i.toNat)) }) ∧
    (127 < i.toNat → exec (.rxbufRead i) s = .next { s with fault := some .badIndex }) ∧
    encode (.txbufWrite i v) = [0x30, i, v] ∧ encode (.txbufRead i) = [0x31, i] ∧ encode (.rxbufRead i) = [0x32, i]

/-! ## Invariants every step keeps -/

/-- All the invariants hold at reset. -/
def Obligations.ResetMeetsTheInvariants : Prop :=
  memoryOk State.reset ∧ stackOk State.reset ∧ slotOk State.reset ∧ maskOk State.reset ∧ registryOk State.reset

/-- R70, R71, R168, R218: both buffers stay in canonical form within their sizes, and no operation carries a size past
its layer's MTU. -/
def Obligations.StepKeepsMemoryCanonical : Prop :=
  ∀ s t : State, memoryOk s → step s = .next t → memoryOk t

/-- R31, R46: the frames below the top one stay suspended, and at most MAX_UPCALL_DEPTH upcalls are outstanding. -/
def Obligations.StepKeepsStackDiscipline : Prop :=
  ∀ s t : State, stackOk s → step s = .next t → stackOk t

/-- R180, first invariant: a queued frame only beside a waiting one, except inside a dismiss. -/
def Obligations.StepKeepsSlotInvariant : Prop :=
  ∀ s t : State, slotOk s → step s = .next t → slotOk t

/-- R180, third invariant: once RADIO_INIT has run, the interrupt is masked exactly inside T3 to T12 of a send and
inside RADIO_INIT. -/
def Obligations.StepKeepsMaskInvariant : Prop :=
  ∀ s t : State, stackOk s → maskOk s → step s = .next t → maskOk t

/-- R44: the registry never exceeds N_HANDLERS. -/
def Obligations.StepKeepsRegistryWithinCapacity : Prop :=
  ∀ s t : State, registryOk s → step s = .next t → registryOk t

/-! ## Rules of the whole machine -/

/-- R41, R203: nothing but link encapsulation and a reset event writes the sequence counter, and encapsulation advances
it by one modulo 256. -/
def Obligations.SequenceAdvancesOnlyAtEncapsulation : Prop :=
  ∀ s t : State, step s = .next t →
    t.seq = s.seq ∨ (∃ n, runningAt s = some (.l2 n) ∧ t.seq = s.seq + 1) ∨ ∃ rest, s.sched = .reset :: rest

/-- R264: nothing but SD1, with the inbound frame's endpoint, and a reset event writes the dispatch context. -/
def Obligations.DispatchContextWrittenOnlyBySlaveUpcall : Prop :=
  ∀ s t : State, step s = .next t →
    t.dispatchEp = s.dispatchEp ∨
    (∃ kind i ep count, runningAt s = some (.sd1 kind i ep count) ∧ t.dispatchEp = ep ∧ runningAt t = none) ∨
    ∃ rest, s.sched = .reset :: rest

/-- R42: nothing but an accepting decapsulation (U2 of APP_UPDATE, or LINK_GET_RX_PACKET with a frame waiting) and a reset
event writes the last source address. -/
def Obligations.LastSourceWrittenOnlyOnAcceptance : Prop :=
  ∀ s t : State, step s = .next t →
    t.lastSrc = s.lastSrc ∨
    (t.lastSrc = s.rxBuf.getLE16 8 ∧ (rxFilter s).isSome = true ∧
      (runningAt s = some .u2 ∨
        (hostMayIssue s = true ∧ isReady s .link = true ∧ s.rxWaiting = true ∧
          ∃ rest, decodeHost s.port = .ok .linkGetRxPacket rest))) ∨
    ∃ rest, s.sched = .reset :: rest

/-- R79, R34: while a frame waits, no step writes RXBUF, but the pull of a dismiss and a reset event. -/
def Obligations.WaitingFrameIsStable : Prop :=
  ∀ s t : State, step s = .next t → s.rxWaiting = true → runningAt s ≠ some .d3 →
    (∀ rest, s.sched ≠ .reset :: rest) → t.rxBuf = s.rxBuf

/-- R35, R181, R330: only the ISR, enabled and with a frame waiting, sets the queued flag; only the queued path of a
dismiss, RADIO_INIT and a reset event clear it. -/
def Obligations.QueuedFlagWrittenOnlyByItsOwners : Prop :=
  ∀ s t : State, step s = .next t →
    t.rxQueued = s.rxQueued ∨
    (t.rxQueued = true ∧ s.irqEn = true ∧ s.rxWaiting = true ∧ ∃ rest, s.sched = .isr :: rest) ∨
    (t.rxQueued = false ∧
      (runningAt s = some .d3 ∨ (hostMayIssue s = true ∧ ∃ rest, decodeHost s.port = .ok .radioInit rest) ∨
        ∃ rest, s.sched = .reset :: rest))

/-- R44: the registry is append-only: only APP_INIT and a reset event take entries away. -/
def Obligations.RegistryIsAppendOnly : Prop :=
  ∀ s t : State, step s = .next t →
    (∃ new, t.handlers = s.handlers ++ new) ∨
    (hostMayIssue s = true ∧ ∃ rest, decodeHost s.port = .ok .appInit rest) ∨ ∃ rest, s.sched = .reset :: rest

/-- R301: no step but a reset event clears a fault, and none changes the parameters (log 1, log 3). -/
def Obligations.FaultAndParametersPersist : Prop :=
  ∀ s t : State, step s = .next t → t.cfg = s.cfg ∧ (s.fault ≠ none → ∃ rest, s.sched = .reset :: rest)

/-- R161 CH3, R175, R178: with a chip that never returns a length above 127, CHIP_LENGTH is never raised, and the
premise goes on holding (log 10). -/
def Obligations.NoChipLengthFaultUnderCH3 : Prop :=
  ∀ s t : State, chipLengthsOk s → step s = .next t → chipLengthsOk t ∧ t.fault ≠ some .chipLength

/-- R38 to R40, R210, R211: but for a reset event, the destination address keeps its value from step to step, over every
send, until the next LINK_SET_DST; the PAN id and the local address keep theirs until the next LINK_INIT. -/
def Obligations.LinkConfigurationPersists : Prop :=
  ∀ s t : State, step s = .next t →
    (∃ rest, s.sched = .reset :: rest) ∨
    ((t.dstAddr = s.dstAddr ∨
      (hostMayIssue s = true ∧ ∃ addr rest, decodeHost s.port = .ok (.linkSetDst addr) rest ∧ t.dstAddr = addr)) ∧
    (t.panId = s.panId ∧ t.localAddr = s.localAddr ∨
      (hostMayIssue s = true ∧ ∃ pan addr rest, decodeHost s.port = .ok (.linkInit pan addr) rest ∧
        t.panId = pan ∧ t.localAddr = addr)))

/-- R301: the codes of the seven fault reasons; a code names one reason. -/
def Obligations.FaultCodesAreTheTable : Prop :=
  Fault.code .illegalOpcode = 1 ∧ Fault.code .badOperand = 2 ∧ Fault.code .notInitialised = 3 ∧
  Fault.code .badIndex = 4 ∧ Fault.code .upcallDepth = 5 ∧ Fault.code .noUpcall = 6 ∧ Fault.code .chipLength = 7 ∧
  ∀ r r' : Fault, r.code = r'.code → r = r'
end

