-- ==== Sys2Proof/Laws/Decode.lean ====
section
/-! SUPPORT. The decoder's small laws: byte order both ways, record arrays both ways, and where a decoded instruction comes
from. -/

namespace Sys2Proof

/-! ## Byte order (R72) -/

/-- The high part of two joined bit vectors. -/
theorem extract_high {n : Nat} (a : BitVec n) (b : Byte) : (b ++ a).extractLsb' n 8 = b := by
  ext i hi
  simp only [BitVec.getElem_extractLsb', BitVec.getLsbD_append]
  simp [hi]

/-- A field inside the low part of two joined bit vectors. -/
theorem extract_low {n m k : Nat} (a : BitVec n) (b : BitVec m) (o : Nat) (h : o + k ≤ n) :
    (b ++ a).extractLsb' o k = a.extractLsb' o k := by
  ext i hi
  simp only [BitVec.getElem_extractLsb', BitVec.getLsbD_append]
  simp [show o + i < n by omega]

/-- Two bytes joined and split again. -/
theorem bytes16_le16 (a b : Byte) : bytes16 (le16 a b) = [a, b] := by
  unfold bytes16 le16
  rw [show (b ++ a : BitVec 16).extractLsb' 0 8 = a from (extract_low a b 0 (by decide)).trans (by ext i hi; simp),
    show (b ++ a : BitVec 16).extractLsb' 8 8 = b from extract_high a b]

/-- Four bytes joined and split again. -/
theorem bytes32_le32 (a b c d : Byte) : bytes32 (le32 a b c d) = [a, b, c, d] := by
  unfold bytes32 le32
  have l0 : (d ++ c ++ b ++ a : BitVec 32).extractLsb' 0 8 = a :=
    (extract_low a (d ++ c ++ b) 0 (by decide)).trans (by ext i hi; simp)
  have l1 : (d ++ c ++ b ++ a : BitVec 32).extractLsb' 8 8 = b := by
    have e : (d ++ c ++ b ++ a : BitVec 32) = ((d ++ c) ++ (b ++ a) : BitVec 32) := by
      ext i hi; simp only [BitVec.getElem_append]; split_ifs <;> first | omega | rfl
    rw [e]; exact (extract_low (b ++ a) (d ++ c) 8 (by decide)).trans (extract_high a b)
  have l2 : (d ++ c ++ b ++ a : BitVec 32).extractLsb' 16 8 = c := by
    have e : (d ++ c ++ b ++ a : BitVec 32) = (d ++ (c ++ (b ++ a)) : BitVec 32) := by
      ext i hi; simp only [BitVec.getElem_append]; split_ifs <;> first | omega | rfl
    rw [e]; exact (extract_low (c ++ (b ++ a)) d 16 (by decide)).trans (extract_high (b ++ a) c)
  have l3 : (d ++ c ++ b ++ a : BitVec 32).extractLsb' 24 8 = d := by
    have e : (d ++ c ++ b ++ a : BitVec 32) = (d ++ (c ++ (b ++ a)) : BitVec 32) := by
      ext i hi; simp only [BitVec.getElem_append]; split_ifs <;> first | omega | rfl
    rw [e]; exact extract_high (c ++ (b ++ a)) d
  rw [l0, l1, l2, l3]

/-- A 32-bit value split and joined again. -/
@[simp] theorem le32_extract (v : Value) :
    le32 (v.extractLsb' 0 8) (v.extractLsb' 8 8) (v.extractLsb' 16 8) (v.extractLsb' 24 8) = v := by
  simp only [le32]
  ext i hi
  simp only [BitVec.getElem_append, BitVec.getElem_extractLsb']
  split_ifs with h1 h2 h3
  · simp [BitVec.getLsbD_eq_getElem hi]
  all_goals simp only [← BitVec.getLsbD_eq_getElem]; congr 1; omega

/-- A 16-bit value split and joined again. -/
@[simp] theorem le16_extract (v : Half) : le16 (v.extractLsb' 0 8) (v.extractLsb' 8 8) = v := by
  simp only [le16]
  ext i hi
  simp only [BitVec.getElem_append, BitVec.getElem_extractLsb']
  split_ifs with h
  · simp [BitVec.getLsbD_eq_getElem hi]
  · have : 8 + (i - 8) = i := by omega
    simp [this, BitVec.getLsbD_eq_getElem hi]

/-! ## Record arrays (R113) -/

/-- Address Records read back from their bytes. -/
theorem addrRecords_bytes (rs : List Half) : addrRecords (addrBytes rs) = some rs := by
  induction rs with
  | nil => rfl
  | cons r rs ih =>
    simp only [addrBytes, List.flatMap_cons, bytes16, List.cons_append, List.nil_append, addrRecords] at *
    rw [ih]; simp

/-- Register-Pair Records read back from their bytes. -/
theorem pairRecords_bytes (rs : List PairRec) : pairRecords (pairBytes rs) = some rs := by
  induction rs with
  | nil => rfl
  | cons r rs ih =>
    simp only [pairBytes, List.flatMap_cons, bytes16, bytes32, List.cons_append, List.nil_append, pairRecords] at *
    rw [ih]; simp

/-- The bytes of the Address Records that were read. -/
theorem addrBytes_records : ∀ {p : List Byte} {rs : List Half}, addrRecords p = some rs → p = addrBytes rs
  | [], rs, h => by simp [addrRecords] at h; subst h; rfl
  | [_], rs, h => by simp [addrRecords] at h
  | a :: b :: p, rs, h => by
    simp only [addrRecords, Option.map_eq_some_iff] at h
    obtain ⟨r, h1, rfl⟩ := h
    simp only [addrBytes, List.flatMap_cons, bytes16_le16]
    rw [addrBytes_records h1]; rfl

/-- The bytes of the Register-Pair Records that were read. -/
theorem pairBytes_records :
    ∀ {p : List Byte} {rs : List PairRec}, pairRecords p = some rs → p = pairBytes rs := by
  intro p
  induction p using pairRecords.induct with
  | case1 => intro rs h; simp [pairRecords] at h; subst h; rfl
  | case2 a b c d e f p ih =>
    intro rs h
    simp only [pairRecords, Option.map_eq_some_iff] at h
    obtain ⟨r, h1, rfl⟩ := h
    simp only [pairBytes, List.flatMap_cons, bytes16_le16, bytes32_le32]
    rw [ih h1]; rfl
  | case3 p h1 h2 =>
    intro rs h
    unfold pairRecords at h
    split at h <;> first | exact absurd rfl h1 | exact absurd rfl (h2 _ _ _ _ _ _ _) | cases h

/-! ## Sources -/

theorem decodeOpcode_source {op : Byte} {args rest : List Byte} {i : Instr} (h : decodeOpcode op args = .ok i rest) :
    i.source = .host := by
  unfold decodeOpcode at h
  split at h
  all_goals first
    | (cases h; rfl)
    | (unfold operand1 at h; split at h <;> cases h; rfl)
    | (unfold operand2 at h; split at h <;> cases h; rfl)
    | (unfold operand4 at h; split at h <;> cases h; rfl)
    | cases h

/-- What is decoded on the host port is a host command (R101). -/
theorem decodeHost_source {bytes rest : List Byte} {i : Instr} (h : decodeHost bytes = .ok i rest) :
    i.source = .host := by
  unfold decodeHost at h
  split at h
  · cases h
  · unfold checkOperands at h
    split at h
    · split at h <;> cases h
      exact decodeOpcode_source ‹_›
    · rename_i d hd; exact absurd h (by intro h'; exact hd _ _ h')

/-- What is decoded from a link payload is an application frame (R114). -/
theorem decodeApp_source {bytes : List Byte} {i : Instr} (h : decodeApp bytes = some i) : i.source = .app := by
  unfold decodeApp at h
  split at h
  · unfold decodeRecords at h
    split at h
    all_goals first
      | (obtain ⟨_, _, rfl⟩ := Option.map_eq_some_iff.mp h; rfl)
      | (cases h; rfl)
      | cases h
  · cases h

/-- An application frame longer than its header is its code's records. -/
theorem decodeApp_cons (c e : Byte) (p : List Byte) (h : p ≠ []) : decodeApp (c :: e :: p) = decodeRecords c e p := by
  cases p with
  | nil => exact absurd rfl h
  | cons b t => rfl

end Sys2Proof
end

