-- ==== Sys2Proof/Laws/Memory.lean ====
section
/-! SUPPORT. The laws of memory and of the buffers: a read after a write, and that every memory operation keeps the canonical
form. -/

namespace Sys2Proof.Machine

/-! ## Reads -/

theorem Memory.get?_set (m : Memory) (a i : Nat) (v : Byte) :
    Memory.get? (Memory.set m a v) i = if a = i then some v else Memory.get? m i := by
  induction m with
  | nil => simp [Memory.set, Memory.get?]
  | cons c rest ih =>
    obtain ⟨k, w⟩ := c
    simp only [Memory.set]
    split_ifs with h1 h2 h3 h4 h5 <;> simp_all [Memory.get?]; omega

theorem Memory.get?_fromBytes (a : Nat) (bytes : List Byte) (i : Nat) :
    Memory.get? (Memory.fromBytes a bytes) i = if a ≤ i then bytes[i - a]? else none := by
  induction bytes generalizing a with
  | nil => simp [Memory.fromBytes, Memory.get?]
  | cons b rest ih =>
    simp only [Memory.fromBytes, Memory.get?, ih]
    rcases Nat.lt_trichotomy a i with h | h | h
    · have e : i - a = (i - (a + 1)) + 1 := by omega
      simp [show a ≠ i by omega, show a ≤ i by omega, show a + 1 ≤ i by omega, e]
    · subst h; simp
    · simp [show a ≠ i by omega, show ¬ a ≤ i by omega, show ¬ a + 1 ≤ i by omega]

/-! ## The canonical form -/

theorem Memory.mem_set (m : Memory) (a : Nat) (v : Byte) (c : Host.Cell) (h : c ∈ Memory.set m a v) :
    c = (a, v) ∨ c ∈ m := by
  induction m with
  | nil => simpa [Memory.set] using h
  | cons d rest ih =>
    obtain ⟨k, w⟩ := d
    simp only [Memory.set] at h
    split_ifs at h with h1 h2
    · simpa using h
    · rcases List.mem_cons.mp h with h | h
      · exact .inl h
      · exact .inr (List.mem_cons_of_mem _ h)
    · rcases List.mem_cons.mp h with h | h
      · exact .inr (h ▸ List.mem_cons_self ..)
      · exact (ih h).imp id (List.mem_cons_of_mem _)

theorem Memory.wf_set {size : Nat} {m : Memory} (hm : Memory.wf size m) {a : Nat} (ha : a < size) (v : Byte) :
    Memory.wf size (Memory.set m a v) := by
  refine ⟨?_, fun c hc => ?_⟩
  · induction m with
    | nil => simp [Memory.set]
    | cons d rest ih =>
      obtain ⟨k, w⟩ := d
      obtain ⟨hp, hs⟩ := hm
      rw [List.pairwise_cons] at hp
      have hrest : Memory.wf size rest := ⟨hp.2, fun c hc => hs c (List.mem_cons_of_mem _ hc)⟩
      simp only [Memory.set]
      split_ifs with h1 h2
      · refine List.pairwise_cons.mpr ⟨fun c hc => ?_, List.pairwise_cons.mpr hp⟩
        rcases List.mem_cons.mp hc with rfl | hc
        · exact h1
        · have := hp.1 c hc; simp only at this ⊢; omega
      · subst h2; exact List.pairwise_cons.mpr hp
      · refine List.pairwise_cons.mpr ⟨fun c hc => ?_, ih hrest⟩
        rcases Memory.mem_set rest a v c hc with rfl | hc
        · simp only; omega
        · exact hp.1 c hc
  · rcases Memory.mem_set m a v c hc with rfl | hc
    · exact ha
    · exact hm.2 c hc

theorem Memory.mem_fromBytes (a : Nat) (bytes : List Byte) (c : Host.Cell) (h : c ∈ Memory.fromBytes a bytes) :
    a ≤ c.1 ∧ c.1 < a + bytes.length := by
  induction bytes generalizing a with
  | nil => simp [Memory.fromBytes] at h
  | cons b rest ih =>
    rcases List.mem_cons.mp h with rfl | h
    · simp
    · have := ih (a + 1) h; simp only [List.length_cons]; omega

theorem Memory.wf_fromBytes {size a : Nat} {bytes : List Byte} (h : a + bytes.length ≤ size) :
    Memory.wf size (Memory.fromBytes a bytes) := by
  refine ⟨?_, fun c hc => ?_⟩
  · clear h
    induction bytes generalizing a with
    | nil => simp [Memory.fromBytes]
    | cons b rest ih =>
      exact List.pairwise_cons.mpr ⟨fun c hc => by have := Memory.mem_fromBytes _ _ _ hc; simp only; omega, ih⟩
  · have := Memory.mem_fromBytes _ _ _ hc; omega

theorem Memory.wf_nil (size : Nat) : Memory.wf size [] := by simp [Memory.wf]

/-- The reset memories are in canonical form. -/
theorem reset_memory_wf :
    Memory.wf txSize State.reset.txBuf.cells ∧ Memory.wf rxSize State.reset.rxBuf.cells :=
  ⟨Memory.wf_nil _, Memory.wf_nil _⟩

theorem Buffer.wf_write {size : Nat} {b : Buffer} (h : Memory.wf size b.cells) {i : Nat} (hi : i < size) (v : Byte) :
    Memory.wf size (b.write i v).cells := Memory.wf_set h hi v

theorem Buffer.wf_putLE16 {size : Nat} {b : Buffer} (h : Memory.wf size b.cells) {off : Nat} (hi : off + 1 < size)
    (v : Half) : Memory.wf size (b.putLE16 off v).cells :=
  Buffer.wf_write (Buffer.wf_write h (by omega) _) hi _

theorem Buffer.wf_ofFrame {len : Byte} {bytes : List Byte} {draw : Nat} (h : bytes.length < rxSize) :
    Memory.wf rxSize (Buffer.ofFrame len bytes draw).cells :=
  Memory.wf_fromBytes (by simp only [List.length_cons]; omega)

/-! ## Buffers -/

theorem Buffer.read_write (b : Buffer) (i a : Nat) (v : Byte) :
    (b.write i v).read a = if i = a then v else b.read a := by
  simp only [Buffer.read, Buffer.write, Memory.get?_set]
  split_ifs <;> rfl

@[simp] theorem Buffer.read_write_same (b : Buffer) (i : Nat) (v : Byte) : (b.write i v).read i = v := by
  simp [Buffer.read_write]

theorem Buffer.read_putLE16 (b : Buffer) (off a : Nat) (v : Half) :
    (b.putLE16 off v).read a =
      if off + 1 = a then v.extractLsb' 8 8 else if off = a then v.extractLsb' 0 8 else b.read a := by
  simp only [Buffer.putLE16, Buffer.read_write]

@[simp] theorem Buffer.getLE16_putLE16 (b : Buffer) (off : Nat) (v : Half) : (b.putLE16 off v).getLE16 off = v := by
  simp [Buffer.getLE16, Buffer.read_putLE16]

@[simp] theorem Buffer.slice_length (b : Buffer) (off n : Nat) : (b.slice off n).length = n := by
  induction n generalizing off with
  | zero => rfl
  | succ n ih => simp [Buffer.slice, ih]

theorem Buffer.slice_add (b : Buffer) (off m n : Nat) :
    b.slice off (m + n) = b.slice off m ++ b.slice (off + m) n := by
  induction m generalizing off with
  | zero => simp [Buffer.slice]
  | succ m ih =>
    have e : m + 1 + n = (m + n) + 1 := by omega
    rw [e, Buffer.slice, Buffer.slice, ih (off + 1), List.cons_append, show off + 1 + m = off + (m + 1) by omega]

theorem Buffer.slice_congr {b c : Buffer} {off n : Nat} (h : ∀ a, off ≤ a → a < off + n → b.read a = c.read a) :
    b.slice off n = c.slice off n := by
  induction n generalizing off with
  | zero => rfl
  | succ n ih =>
    rw [Buffer.slice, Buffer.slice, h off (by omega) (by omega), ih fun a h1 h2 => h a (by omega) (by omega)]

/-- RXBUF after a pull: the length byte at 0 and frame byte `k` at `k + 1` (R71). -/
theorem Buffer.read_ofFrame_zero (len : Byte) (bytes : List Byte) (draw : Nat) :
    (Buffer.ofFrame len bytes draw).read 0 = len := by
  simp [Buffer.ofFrame, Buffer.read, Memory.get?_fromBytes]

theorem Buffer.read_ofFrame_succ (len : Byte) (bytes : List Byte) (draw k : Nat) (h : k < bytes.length) :
    (Buffer.ofFrame len bytes draw).read (k + 1) = bytes[k] := by
  simp [Buffer.ofFrame, Buffer.read, Memory.get?_fromBytes, h]

end Sys2Proof.Machine
end

