-- ==== Sys2Proof/Laws/State.lean ====
section
/-! SUPPORT. What each shared update of the state writes and leaves, one lemma per field, so that no proof unfolds a record
update. -/

namespace Sys2Proof.Machine

variable (s : State)

/-! ## push -/

@[simp] theorem push_irqEn (op : Instr) : (push op s).irqEn = s.irqEn := rfl
@[simp] theorem push_rxWaiting (op : Instr) : (push op s).rxWaiting = s.rxWaiting := rfl
@[simp] theorem push_rxQueued (op : Instr) : (push op s).rxQueued = s.rxQueued := rfl
@[simp] theorem push_radioReady (op : Instr) : (push op s).radioReady = s.radioReady := rfl
@[simp] theorem push_linkReady (op : Instr) : (push op s).linkReady = s.linkReady := rfl
@[simp] theorem push_appReady (op : Instr) : (push op s).appReady = s.appReady := rfl
@[simp] theorem push_panId (op : Instr) : (push op s).panId = s.panId := rfl
@[simp] theorem push_localAddr (op : Instr) : (push op s).localAddr = s.localAddr := rfl
@[simp] theorem push_dstAddr (op : Instr) : (push op s).dstAddr = s.dstAddr := rfl
@[simp] theorem push_seq (op : Instr) : (push op s).seq = s.seq := rfl
@[simp] theorem push_lastSrc (op : Instr) : (push op s).lastSrc = s.lastSrc := rfl
@[simp] theorem push_cbReadAns (op : Instr) : (push op s).cbReadAns = s.cbReadAns := rfl
@[simp] theorem push_cbWriteAns (op : Instr) : (push op s).cbWriteAns = s.cbWriteAns := rfl
@[simp] theorem push_handlers (op : Instr) : (push op s).handlers = s.handlers := rfl
@[simp] theorem push_dispatchEp (op : Instr) : (push op s).dispatchEp = s.dispatchEp := rfl
@[simp] theorem push_frames (op : Instr) : (push op s).frames = ⟨op, .start, none⟩ :: s.frames := rfl
@[simp] theorem push_fault (op : Instr) : (push op s).fault = s.fault := rfl
@[simp] theorem push_txBuf (op : Instr) : (push op s).txBuf = s.txBuf := rfl
@[simp] theorem push_rxBuf (op : Instr) : (push op s).rxBuf = s.rxBuf := rfl
@[simp] theorem push_chip (op : Instr) : (push op s).chip = s.chip := rfl
@[simp] theorem push_clock (op : Instr) : (push op s).clock = s.clock := rfl
@[simp] theorem push_port (op : Instr) : (push op s).port = s.port := rfl
@[simp] theorem push_result (op : Instr) : (push op s).result = s.result := rfl
@[simp] theorem push_sched (op : Instr) : (push op s).sched = s.sched := rfl
@[simp] theorem push_draws (op : Instr) : (push op s).draws = s.draws := rfl
@[simp] theorem push_cfg (op : Instr) : (push op s).cfg = s.cfg := rfl

/-! ## goto -/

@[simp] theorem goto_irqEn (pc : Pc) : (goto pc s).irqEn = s.irqEn := rfl
@[simp] theorem goto_rxWaiting (pc : Pc) : (goto pc s).rxWaiting = s.rxWaiting := rfl
@[simp] theorem goto_rxQueued (pc : Pc) : (goto pc s).rxQueued = s.rxQueued := rfl
@[simp] theorem goto_radioReady (pc : Pc) : (goto pc s).radioReady = s.radioReady := rfl
@[simp] theorem goto_linkReady (pc : Pc) : (goto pc s).linkReady = s.linkReady := rfl
@[simp] theorem goto_appReady (pc : Pc) : (goto pc s).appReady = s.appReady := rfl
@[simp] theorem goto_panId (pc : Pc) : (goto pc s).panId = s.panId := rfl
@[simp] theorem goto_localAddr (pc : Pc) : (goto pc s).localAddr = s.localAddr := rfl
@[simp] theorem goto_dstAddr (pc : Pc) : (goto pc s).dstAddr = s.dstAddr := rfl
@[simp] theorem goto_seq (pc : Pc) : (goto pc s).seq = s.seq := rfl
@[simp] theorem goto_lastSrc (pc : Pc) : (goto pc s).lastSrc = s.lastSrc := rfl
@[simp] theorem goto_cbReadAns (pc : Pc) : (goto pc s).cbReadAns = s.cbReadAns := rfl
@[simp] theorem goto_cbWriteAns (pc : Pc) : (goto pc s).cbWriteAns = s.cbWriteAns := rfl
@[simp] theorem goto_handlers (pc : Pc) : (goto pc s).handlers = s.handlers := rfl
@[simp] theorem goto_dispatchEp (pc : Pc) : (goto pc s).dispatchEp = s.dispatchEp := rfl
@[simp] theorem goto_fault (pc : Pc) : (goto pc s).fault = s.fault := rfl
@[simp] theorem goto_txBuf (pc : Pc) : (goto pc s).txBuf = s.txBuf := rfl
@[simp] theorem goto_rxBuf (pc : Pc) : (goto pc s).rxBuf = s.rxBuf := rfl
@[simp] theorem goto_chip (pc : Pc) : (goto pc s).chip = s.chip := rfl
@[simp] theorem goto_clock (pc : Pc) : (goto pc s).clock = s.clock := rfl
@[simp] theorem goto_port (pc : Pc) : (goto pc s).port = s.port := rfl
@[simp] theorem goto_result (pc : Pc) : (goto pc s).result = s.result := rfl
@[simp] theorem goto_sched (pc : Pc) : (goto pc s).sched = s.sched := rfl
@[simp] theorem goto_draws (pc : Pc) : (goto pc s).draws = s.draws := rfl
@[simp] theorem goto_cfg (pc : Pc) : (goto pc s).cfg = s.cfg := rfl

/-! ## finish -/

@[simp] theorem finish_irqEn (r : Result) : (finish r s).irqEn = s.irqEn := rfl
@[simp] theorem finish_rxWaiting (r : Result) : (finish r s).rxWaiting = s.rxWaiting := rfl
@[simp] theorem finish_rxQueued (r : Result) : (finish r s).rxQueued = s.rxQueued := rfl
@[simp] theorem finish_radioReady (r : Result) : (finish r s).radioReady = s.radioReady := rfl
@[simp] theorem finish_linkReady (r : Result) : (finish r s).linkReady = s.linkReady := rfl
@[simp] theorem finish_appReady (r : Result) : (finish r s).appReady = s.appReady := rfl
@[simp] theorem finish_panId (r : Result) : (finish r s).panId = s.panId := rfl
@[simp] theorem finish_localAddr (r : Result) : (finish r s).localAddr = s.localAddr := rfl
@[simp] theorem finish_dstAddr (r : Result) : (finish r s).dstAddr = s.dstAddr := rfl
@[simp] theorem finish_seq (r : Result) : (finish r s).seq = s.seq := rfl
@[simp] theorem finish_lastSrc (r : Result) : (finish r s).lastSrc = s.lastSrc := rfl
@[simp] theorem finish_cbReadAns (r : Result) : (finish r s).cbReadAns = s.cbReadAns := rfl
@[simp] theorem finish_cbWriteAns (r : Result) : (finish r s).cbWriteAns = s.cbWriteAns := rfl
@[simp] theorem finish_handlers (r : Result) : (finish r s).handlers = s.handlers := rfl
@[simp] theorem finish_dispatchEp (r : Result) : (finish r s).dispatchEp = s.dispatchEp := rfl
@[simp] theorem finish_frames (r : Result) : (finish r s).frames = s.frames.tail := rfl
@[simp] theorem finish_fault (r : Result) : (finish r s).fault = s.fault := rfl
@[simp] theorem finish_txBuf (r : Result) : (finish r s).txBuf = s.txBuf := rfl
@[simp] theorem finish_rxBuf (r : Result) : (finish r s).rxBuf = s.rxBuf := rfl
@[simp] theorem finish_chip (r : Result) : (finish r s).chip = s.chip := rfl
@[simp] theorem finish_clock (r : Result) : (finish r s).clock = s.clock := rfl
@[simp] theorem finish_port (r : Result) : (finish r s).port = s.port := rfl
@[simp] theorem finish_result (r : Result) : (finish r s).result = some r := rfl
@[simp] theorem finish_sched (r : Result) : (finish r s).sched = s.sched := rfl
@[simp] theorem finish_draws (r : Result) : (finish r s).draws = s.draws := rfl
@[simp] theorem finish_cfg (r : Result) : (finish r s).cfg = s.cfg := rfl

/-! ## suspend -/

@[simp] theorem suspend_irqEn (u : Upcall) (pc : Pc) : (suspend u pc s).irqEn = s.irqEn := rfl
@[simp] theorem suspend_rxWaiting (u : Upcall) (pc : Pc) : (suspend u pc s).rxWaiting = s.rxWaiting := rfl
@[simp] theorem suspend_rxQueued (u : Upcall) (pc : Pc) : (suspend u pc s).rxQueued = s.rxQueued := rfl
@[simp] theorem suspend_radioReady (u : Upcall) (pc : Pc) : (suspend u pc s).radioReady = s.radioReady := rfl
@[simp] theorem suspend_linkReady (u : Upcall) (pc : Pc) : (suspend u pc s).linkReady = s.linkReady := rfl
@[simp] theorem suspend_appReady (u : Upcall) (pc : Pc) : (suspend u pc s).appReady = s.appReady := rfl
@[simp] theorem suspend_panId (u : Upcall) (pc : Pc) : (suspend u pc s).panId = s.panId := rfl
@[simp] theorem suspend_localAddr (u : Upcall) (pc : Pc) : (suspend u pc s).localAddr = s.localAddr := rfl
@[simp] theorem suspend_dstAddr (u : Upcall) (pc : Pc) : (suspend u pc s).dstAddr = s.dstAddr := rfl
@[simp] theorem suspend_seq (u : Upcall) (pc : Pc) : (suspend u pc s).seq = s.seq := rfl
@[simp] theorem suspend_lastSrc (u : Upcall) (pc : Pc) : (suspend u pc s).lastSrc = s.lastSrc := rfl
@[simp] theorem suspend_cbReadAns (u : Upcall) (pc : Pc) : (suspend u pc s).cbReadAns = s.cbReadAns := rfl
@[simp] theorem suspend_cbWriteAns (u : Upcall) (pc : Pc) : (suspend u pc s).cbWriteAns = s.cbWriteAns := rfl
@[simp] theorem suspend_handlers (u : Upcall) (pc : Pc) : (suspend u pc s).handlers = s.handlers := rfl
@[simp] theorem suspend_dispatchEp (u : Upcall) (pc : Pc) : (suspend u pc s).dispatchEp = s.dispatchEp := rfl
@[simp] theorem suspend_fault (u : Upcall) (pc : Pc) : (suspend u pc s).fault = s.fault := rfl
@[simp] theorem suspend_txBuf (u : Upcall) (pc : Pc) : (suspend u pc s).txBuf = s.txBuf := rfl
@[simp] theorem suspend_rxBuf (u : Upcall) (pc : Pc) : (suspend u pc s).rxBuf = s.rxBuf := rfl
@[simp] theorem suspend_chip (u : Upcall) (pc : Pc) : (suspend u pc s).chip = s.chip := rfl
@[simp] theorem suspend_clock (u : Upcall) (pc : Pc) : (suspend u pc s).clock = s.clock := rfl
@[simp] theorem suspend_port (u : Upcall) (pc : Pc) : (suspend u pc s).port = s.port := rfl
@[simp] theorem suspend_result (u : Upcall) (pc : Pc) : (suspend u pc s).result = s.result := rfl
@[simp] theorem suspend_sched (u : Upcall) (pc : Pc) : (suspend u pc s).sched = s.sched := rfl
@[simp] theorem suspend_draws (u : Upcall) (pc : Pc) : (suspend u pc s).draws = s.draws := rfl
@[simp] theorem suspend_cfg (u : Upcall) (pc : Pc) : (suspend u pc s).cfg = s.cfg := rfl

/-! ## resume -/

@[simp] theorem resume_irqEn : (resume s).irqEn = s.irqEn := rfl
@[simp] theorem resume_rxWaiting : (resume s).rxWaiting = s.rxWaiting := rfl
@[simp] theorem resume_rxQueued : (resume s).rxQueued = s.rxQueued := rfl
@[simp] theorem resume_radioReady : (resume s).radioReady = s.radioReady := rfl
@[simp] theorem resume_linkReady : (resume s).linkReady = s.linkReady := rfl
@[simp] theorem resume_appReady : (resume s).appReady = s.appReady := rfl
@[simp] theorem resume_panId : (resume s).panId = s.panId := rfl
@[simp] theorem resume_localAddr : (resume s).localAddr = s.localAddr := rfl
@[simp] theorem resume_dstAddr : (resume s).dstAddr = s.dstAddr := rfl
@[simp] theorem resume_seq : (resume s).seq = s.seq := rfl
@[simp] theorem resume_lastSrc : (resume s).lastSrc = s.lastSrc := rfl
@[simp] theorem resume_cbReadAns : (resume s).cbReadAns = s.cbReadAns := rfl
@[simp] theorem resume_cbWriteAns : (resume s).cbWriteAns = s.cbWriteAns := rfl
@[simp] theorem resume_handlers : (resume s).handlers = s.handlers := rfl
@[simp] theorem resume_dispatchEp : (resume s).dispatchEp = s.dispatchEp := rfl
@[simp] theorem resume_fault : (resume s).fault = s.fault := rfl
@[simp] theorem resume_txBuf : (resume s).txBuf = s.txBuf := rfl
@[simp] theorem resume_rxBuf : (resume s).rxBuf = s.rxBuf := rfl
@[simp] theorem resume_chip : (resume s).chip = s.chip := rfl
@[simp] theorem resume_clock : (resume s).clock = s.clock := rfl
@[simp] theorem resume_port : (resume s).port = s.port := rfl
@[simp] theorem resume_result : (resume s).result = s.result := rfl
@[simp] theorem resume_sched : (resume s).sched = s.sched := rfl
@[simp] theorem resume_draws : (resume s).draws = s.draws := rfl
@[simp] theorem resume_cfg : (resume s).cfg = s.cfg := rfl

/-! ## setRegs -/

@[simp] theorem setRegs_irqEn (r : ChipRegs) : (setRegs r s).irqEn = s.irqEn := rfl
@[simp] theorem setRegs_rxWaiting (r : ChipRegs) : (setRegs r s).rxWaiting = s.rxWaiting := rfl
@[simp] theorem setRegs_rxQueued (r : ChipRegs) : (setRegs r s).rxQueued = s.rxQueued := rfl
@[simp] theorem setRegs_radioReady (r : ChipRegs) : (setRegs r s).radioReady = s.radioReady := rfl
@[simp] theorem setRegs_linkReady (r : ChipRegs) : (setRegs r s).linkReady = s.linkReady := rfl
@[simp] theorem setRegs_appReady (r : ChipRegs) : (setRegs r s).appReady = s.appReady := rfl
@[simp] theorem setRegs_panId (r : ChipRegs) : (setRegs r s).panId = s.panId := rfl
@[simp] theorem setRegs_localAddr (r : ChipRegs) : (setRegs r s).localAddr = s.localAddr := rfl
@[simp] theorem setRegs_dstAddr (r : ChipRegs) : (setRegs r s).dstAddr = s.dstAddr := rfl
@[simp] theorem setRegs_seq (r : ChipRegs) : (setRegs r s).seq = s.seq := rfl
@[simp] theorem setRegs_lastSrc (r : ChipRegs) : (setRegs r s).lastSrc = s.lastSrc := rfl
@[simp] theorem setRegs_cbReadAns (r : ChipRegs) : (setRegs r s).cbReadAns = s.cbReadAns := rfl
@[simp] theorem setRegs_cbWriteAns (r : ChipRegs) : (setRegs r s).cbWriteAns = s.cbWriteAns := rfl
@[simp] theorem setRegs_handlers (r : ChipRegs) : (setRegs r s).handlers = s.handlers := rfl
@[simp] theorem setRegs_dispatchEp (r : ChipRegs) : (setRegs r s).dispatchEp = s.dispatchEp := rfl
@[simp] theorem setRegs_frames (r : ChipRegs) : (setRegs r s).frames = s.frames := rfl
@[simp] theorem setRegs_fault (r : ChipRegs) : (setRegs r s).fault = s.fault := rfl
@[simp] theorem setRegs_txBuf (r : ChipRegs) : (setRegs r s).txBuf = s.txBuf := rfl
@[simp] theorem setRegs_rxBuf (r : ChipRegs) : (setRegs r s).rxBuf = s.rxBuf := rfl
@[simp] theorem setRegs_chip (r : ChipRegs) : (setRegs r s).chip = { s.chip with regs := r } := rfl
@[simp] theorem setRegs_clock (r : ChipRegs) : (setRegs r s).clock = s.clock := rfl
@[simp] theorem setRegs_port (r : ChipRegs) : (setRegs r s).port = s.port := rfl
@[simp] theorem setRegs_result (r : ChipRegs) : (setRegs r s).result = s.result := rfl
@[simp] theorem setRegs_sched (r : ChipRegs) : (setRegs r s).sched = s.sched := rfl
@[simp] theorem setRegs_draws (r : ChipRegs) : (setRegs r s).draws = s.draws := rfl
@[simp] theorem setRegs_cfg (r : ChipRegs) : (setRegs r s).cfg = s.cfg := rfl

/-! ## chipCommand -/

@[simp] theorem chipCommand_irqEn (c : ChipCmd) : (chipCommand c s).irqEn = s.irqEn := rfl
@[simp] theorem chipCommand_rxWaiting (c : ChipCmd) : (chipCommand c s).rxWaiting = s.rxWaiting := rfl
@[simp] theorem chipCommand_rxQueued (c : ChipCmd) : (chipCommand c s).rxQueued = s.rxQueued := rfl
@[simp] theorem chipCommand_radioReady (c : ChipCmd) : (chipCommand c s).radioReady = s.radioReady := rfl
@[simp] theorem chipCommand_linkReady (c : ChipCmd) : (chipCommand c s).linkReady = s.linkReady := rfl
@[simp] theorem chipCommand_appReady (c : ChipCmd) : (chipCommand c s).appReady = s.appReady := rfl
@[simp] theorem chipCommand_panId (c : ChipCmd) : (chipCommand c s).panId = s.panId := rfl
@[simp] theorem chipCommand_localAddr (c : ChipCmd) : (chipCommand c s).localAddr = s.localAddr := rfl
@[simp] theorem chipCommand_dstAddr (c : ChipCmd) : (chipCommand c s).dstAddr = s.dstAddr := rfl
@[simp] theorem chipCommand_seq (c : ChipCmd) : (chipCommand c s).seq = s.seq := rfl
@[simp] theorem chipCommand_lastSrc (c : ChipCmd) : (chipCommand c s).lastSrc = s.lastSrc := rfl
@[simp] theorem chipCommand_cbReadAns (c : ChipCmd) : (chipCommand c s).cbReadAns = s.cbReadAns := rfl
@[simp] theorem chipCommand_cbWriteAns (c : ChipCmd) : (chipCommand c s).cbWriteAns = s.cbWriteAns := rfl
@[simp] theorem chipCommand_handlers (c : ChipCmd) : (chipCommand c s).handlers = s.handlers := rfl
@[simp] theorem chipCommand_dispatchEp (c : ChipCmd) : (chipCommand c s).dispatchEp = s.dispatchEp := rfl
@[simp] theorem chipCommand_frames (c : ChipCmd) : (chipCommand c s).frames = s.frames := rfl
@[simp] theorem chipCommand_fault (c : ChipCmd) : (chipCommand c s).fault = s.fault := rfl
@[simp] theorem chipCommand_txBuf (c : ChipCmd) : (chipCommand c s).txBuf = s.txBuf := rfl
@[simp] theorem chipCommand_rxBuf (c : ChipCmd) : (chipCommand c s).rxBuf = s.rxBuf := rfl
@[simp] theorem chipCommand_chip (c : ChipCmd) : (chipCommand c s).chip = { s.chip with command := some (cmdCode s.cfg c) } := rfl
@[simp] theorem chipCommand_clock (c : ChipCmd) : (chipCommand c s).clock = s.clock := rfl
@[simp] theorem chipCommand_port (c : ChipCmd) : (chipCommand c s).port = s.port := rfl
@[simp] theorem chipCommand_result (c : ChipCmd) : (chipCommand c s).result = s.result := rfl
@[simp] theorem chipCommand_sched (c : ChipCmd) : (chipCommand c s).sched = s.sched := rfl
@[simp] theorem chipCommand_draws (c : ChipCmd) : (chipCommand c s).draws = s.draws := rfl
@[simp] theorem chipCommand_cfg (c : ChipCmd) : (chipCommand c s).cfg = s.cfg := rfl

/-! ## clearIrqStatus -/

@[simp] theorem clearIrqStatus_irqEn : (clearIrqStatus s).irqEn = s.irqEn := rfl
@[simp] theorem clearIrqStatus_rxWaiting : (clearIrqStatus s).rxWaiting = s.rxWaiting := rfl
@[simp] theorem clearIrqStatus_rxQueued : (clearIrqStatus s).rxQueued = s.rxQueued := rfl
@[simp] theorem clearIrqStatus_radioReady : (clearIrqStatus s).radioReady = s.radioReady := rfl
@[simp] theorem clearIrqStatus_linkReady : (clearIrqStatus s).linkReady = s.linkReady := rfl
@[simp] theorem clearIrqStatus_appReady : (clearIrqStatus s).appReady = s.appReady := rfl
@[simp] theorem clearIrqStatus_panId : (clearIrqStatus s).panId = s.panId := rfl
@[simp] theorem clearIrqStatus_localAddr : (clearIrqStatus s).localAddr = s.localAddr := rfl
@[simp] theorem clearIrqStatus_dstAddr : (clearIrqStatus s).dstAddr = s.dstAddr := rfl
@[simp] theorem clearIrqStatus_seq : (clearIrqStatus s).seq = s.seq := rfl
@[simp] theorem clearIrqStatus_lastSrc : (clearIrqStatus s).lastSrc = s.lastSrc := rfl
@[simp] theorem clearIrqStatus_cbReadAns : (clearIrqStatus s).cbReadAns = s.cbReadAns := rfl
@[simp] theorem clearIrqStatus_cbWriteAns : (clearIrqStatus s).cbWriteAns = s.cbWriteAns := rfl
@[simp] theorem clearIrqStatus_handlers : (clearIrqStatus s).handlers = s.handlers := rfl
@[simp] theorem clearIrqStatus_dispatchEp : (clearIrqStatus s).dispatchEp = s.dispatchEp := rfl
@[simp] theorem clearIrqStatus_frames : (clearIrqStatus s).frames = s.frames := rfl
@[simp] theorem clearIrqStatus_fault : (clearIrqStatus s).fault = s.fault := rfl
@[simp] theorem clearIrqStatus_txBuf : (clearIrqStatus s).txBuf = s.txBuf := rfl
@[simp] theorem clearIrqStatus_rxBuf : (clearIrqStatus s).rxBuf = s.rxBuf := rfl
@[simp] theorem clearIrqStatus_chip : (clearIrqStatus s).chip = { s.chip with regs := { s.chip.regs with irqStatus := 0, irqLine := false } } := rfl
@[simp] theorem clearIrqStatus_clock : (clearIrqStatus s).clock = s.clock := rfl
@[simp] theorem clearIrqStatus_port : (clearIrqStatus s).port = s.port := rfl
@[simp] theorem clearIrqStatus_result : (clearIrqStatus s).result = s.result := rfl
@[simp] theorem clearIrqStatus_sched : (clearIrqStatus s).sched = s.sched := rfl
@[simp] theorem clearIrqStatus_draws : (clearIrqStatus s).draws = s.draws := rfl
@[simp] theorem clearIrqStatus_cfg : (clearIrqStatus s).cfg = s.cfg := rfl

/-! ## chipWriteFrame -/

@[simp] theorem chipWriteFrame_irqEn (n : Nat) : (chipWriteFrame n s).irqEn = s.irqEn := rfl
@[simp] theorem chipWriteFrame_rxWaiting (n : Nat) : (chipWriteFrame n s).rxWaiting = s.rxWaiting := rfl
@[simp] theorem chipWriteFrame_rxQueued (n : Nat) : (chipWriteFrame n s).rxQueued = s.rxQueued := rfl
@[simp] theorem chipWriteFrame_radioReady (n : Nat) : (chipWriteFrame n s).radioReady = s.radioReady := rfl
@[simp] theorem chipWriteFrame_linkReady (n : Nat) : (chipWriteFrame n s).linkReady = s.linkReady := rfl
@[simp] theorem chipWriteFrame_appReady (n : Nat) : (chipWriteFrame n s).appReady = s.appReady := rfl
@[simp] theorem chipWriteFrame_panId (n : Nat) : (chipWriteFrame n s).panId = s.panId := rfl
@[simp] theorem chipWriteFrame_localAddr (n : Nat) : (chipWriteFrame n s).localAddr = s.localAddr := rfl
@[simp] theorem chipWriteFrame_dstAddr (n : Nat) : (chipWriteFrame n s).dstAddr = s.dstAddr := rfl
@[simp] theorem chipWriteFrame_seq (n : Nat) : (chipWriteFrame n s).seq = s.seq := rfl
@[simp] theorem chipWriteFrame_lastSrc (n : Nat) : (chipWriteFrame n s).lastSrc = s.lastSrc := rfl
@[simp] theorem chipWriteFrame_cbReadAns (n : Nat) : (chipWriteFrame n s).cbReadAns = s.cbReadAns := rfl
@[simp] theorem chipWriteFrame_cbWriteAns (n : Nat) : (chipWriteFrame n s).cbWriteAns = s.cbWriteAns := rfl
@[simp] theorem chipWriteFrame_handlers (n : Nat) : (chipWriteFrame n s).handlers = s.handlers := rfl
@[simp] theorem chipWriteFrame_dispatchEp (n : Nat) : (chipWriteFrame n s).dispatchEp = s.dispatchEp := rfl
@[simp] theorem chipWriteFrame_frames (n : Nat) : (chipWriteFrame n s).frames = s.frames := rfl
@[simp] theorem chipWriteFrame_fault (n : Nat) : (chipWriteFrame n s).fault = s.fault := rfl
@[simp] theorem chipWriteFrame_txBuf (n : Nat) : (chipWriteFrame n s).txBuf = s.txBuf := rfl
@[simp] theorem chipWriteFrame_rxBuf (n : Nat) : (chipWriteFrame n s).rxBuf = s.rxBuf := rfl
@[simp] theorem chipWriteFrame_chip (n : Nat) : (chipWriteFrame n s).chip = { s.chip with buffer := .written (BitVec.ofNat 8 n) (s.txBuf.slice 0 n) } := rfl
@[simp] theorem chipWriteFrame_clock (n : Nat) : (chipWriteFrame n s).clock = s.clock := rfl
@[simp] theorem chipWriteFrame_port (n : Nat) : (chipWriteFrame n s).port = s.port := rfl
@[simp] theorem chipWriteFrame_result (n : Nat) : (chipWriteFrame n s).result = s.result := rfl
@[simp] theorem chipWriteFrame_sched (n : Nat) : (chipWriteFrame n s).sched = s.sched := rfl
@[simp] theorem chipWriteFrame_draws (n : Nat) : (chipWriteFrame n s).draws = s.draws := rfl
@[simp] theorem chipWriteFrame_cfg (n : Nat) : (chipWriteFrame n s).cfg = s.cfg := rfl

/-! ## chipPulseTrigger -/

@[simp] theorem chipPulseTrigger_irqEn : (chipPulseTrigger s).irqEn = s.irqEn := rfl
@[simp] theorem chipPulseTrigger_rxWaiting : (chipPulseTrigger s).rxWaiting = s.rxWaiting := rfl
@[simp] theorem chipPulseTrigger_rxQueued : (chipPulseTrigger s).rxQueued = s.rxQueued := rfl
@[simp] theorem chipPulseTrigger_radioReady : (chipPulseTrigger s).radioReady = s.radioReady := rfl
@[simp] theorem chipPulseTrigger_linkReady : (chipPulseTrigger s).linkReady = s.linkReady := rfl
@[simp] theorem chipPulseTrigger_appReady : (chipPulseTrigger s).appReady = s.appReady := rfl
@[simp] theorem chipPulseTrigger_panId : (chipPulseTrigger s).panId = s.panId := rfl
@[simp] theorem chipPulseTrigger_localAddr : (chipPulseTrigger s).localAddr = s.localAddr := rfl
@[simp] theorem chipPulseTrigger_dstAddr : (chipPulseTrigger s).dstAddr = s.dstAddr := rfl
@[simp] theorem chipPulseTrigger_seq : (chipPulseTrigger s).seq = s.seq := rfl
@[simp] theorem chipPulseTrigger_lastSrc : (chipPulseTrigger s).lastSrc = s.lastSrc := rfl
@[simp] theorem chipPulseTrigger_cbReadAns : (chipPulseTrigger s).cbReadAns = s.cbReadAns := rfl
@[simp] theorem chipPulseTrigger_cbWriteAns : (chipPulseTrigger s).cbWriteAns = s.cbWriteAns := rfl
@[simp] theorem chipPulseTrigger_handlers : (chipPulseTrigger s).handlers = s.handlers := rfl
@[simp] theorem chipPulseTrigger_dispatchEp : (chipPulseTrigger s).dispatchEp = s.dispatchEp := rfl
@[simp] theorem chipPulseTrigger_frames : (chipPulseTrigger s).frames = s.frames := rfl
@[simp] theorem chipPulseTrigger_fault : (chipPulseTrigger s).fault = s.fault := rfl
@[simp] theorem chipPulseTrigger_txBuf : (chipPulseTrigger s).txBuf = s.txBuf := rfl
@[simp] theorem chipPulseTrigger_rxBuf : (chipPulseTrigger s).rxBuf = s.rxBuf := rfl
@[simp] theorem chipPulseTrigger_chip : (chipPulseTrigger s).chip = { s.chip with triggers := s.chip.triggers + 1 } := rfl
@[simp] theorem chipPulseTrigger_clock : (chipPulseTrigger s).clock = s.clock := rfl
@[simp] theorem chipPulseTrigger_port : (chipPulseTrigger s).port = s.port := rfl
@[simp] theorem chipPulseTrigger_result : (chipPulseTrigger s).result = s.result := rfl
@[simp] theorem chipPulseTrigger_sched : (chipPulseTrigger s).sched = s.sched := rfl
@[simp] theorem chipPulseTrigger_draws : (chipPulseTrigger s).draws = s.draws := rfl
@[simp] theorem chipPulseTrigger_cfg : (chipPulseTrigger s).cfg = s.cfg := rfl

/-! ## chipPulseReset -/

@[simp] theorem chipPulseReset_irqEn : (chipPulseReset s).irqEn = s.irqEn := rfl
@[simp] theorem chipPulseReset_rxWaiting : (chipPulseReset s).rxWaiting = s.rxWaiting := rfl
@[simp] theorem chipPulseReset_rxQueued : (chipPulseReset s).rxQueued = s.rxQueued := rfl
@[simp] theorem chipPulseReset_radioReady : (chipPulseReset s).radioReady = s.radioReady := rfl
@[simp] theorem chipPulseReset_linkReady : (chipPulseReset s).linkReady = s.linkReady := rfl
@[simp] theorem chipPulseReset_appReady : (chipPulseReset s).appReady = s.appReady := rfl
@[simp] theorem chipPulseReset_panId : (chipPulseReset s).panId = s.panId := rfl
@[simp] theorem chipPulseReset_localAddr : (chipPulseReset s).localAddr = s.localAddr := rfl
@[simp] theorem chipPulseReset_dstAddr : (chipPulseReset s).dstAddr = s.dstAddr := rfl
@[simp] theorem chipPulseReset_seq : (chipPulseReset s).seq = s.seq := rfl
@[simp] theorem chipPulseReset_lastSrc : (chipPulseReset s).lastSrc = s.lastSrc := rfl
@[simp] theorem chipPulseReset_cbReadAns : (chipPulseReset s).cbReadAns = s.cbReadAns := rfl
@[simp] theorem chipPulseReset_cbWriteAns : (chipPulseReset s).cbWriteAns = s.cbWriteAns := rfl
@[simp] theorem chipPulseReset_handlers : (chipPulseReset s).handlers = s.handlers := rfl
@[simp] theorem chipPulseReset_dispatchEp : (chipPulseReset s).dispatchEp = s.dispatchEp := rfl
@[simp] theorem chipPulseReset_frames : (chipPulseReset s).frames = s.frames := rfl
@[simp] theorem chipPulseReset_fault : (chipPulseReset s).fault = s.fault := rfl
@[simp] theorem chipPulseReset_txBuf : (chipPulseReset s).txBuf = s.txBuf := rfl
@[simp] theorem chipPulseReset_rxBuf : (chipPulseReset s).rxBuf = s.rxBuf := rfl
@[simp] theorem chipPulseReset_chip : (chipPulseReset s).chip = { s.chip with regs := Config.freeRegs s.draws, buffer := .empty, resets := s.chip.resets + 1 } := rfl
@[simp] theorem chipPulseReset_clock : (chipPulseReset s).clock = s.clock := rfl
@[simp] theorem chipPulseReset_port : (chipPulseReset s).port = s.port := rfl
@[simp] theorem chipPulseReset_result : (chipPulseReset s).result = s.result := rfl
@[simp] theorem chipPulseReset_sched : (chipPulseReset s).sched = s.sched := rfl
@[simp] theorem chipPulseReset_draws : (chipPulseReset s).draws = s.draws + 1 := rfl
@[simp] theorem chipPulseReset_cfg : (chipPulseReset s).cfg = s.cfg := rfl

/-! ## chipReleaseFrame -/

@[simp] theorem chipReleaseFrame_irqEn : (chipReleaseFrame s).irqEn = s.irqEn := rfl
@[simp] theorem chipReleaseFrame_rxWaiting : (chipReleaseFrame s).rxWaiting = s.rxWaiting := rfl
@[simp] theorem chipReleaseFrame_rxQueued : (chipReleaseFrame s).rxQueued = s.rxQueued := rfl
@[simp] theorem chipReleaseFrame_radioReady : (chipReleaseFrame s).radioReady = s.radioReady := rfl
@[simp] theorem chipReleaseFrame_linkReady : (chipReleaseFrame s).linkReady = s.linkReady := rfl
@[simp] theorem chipReleaseFrame_appReady : (chipReleaseFrame s).appReady = s.appReady := rfl
@[simp] theorem chipReleaseFrame_panId : (chipReleaseFrame s).panId = s.panId := rfl
@[simp] theorem chipReleaseFrame_localAddr : (chipReleaseFrame s).localAddr = s.localAddr := rfl
@[simp] theorem chipReleaseFrame_dstAddr : (chipReleaseFrame s).dstAddr = s.dstAddr := rfl
@[simp] theorem chipReleaseFrame_seq : (chipReleaseFrame s).seq = s.seq := rfl
@[simp] theorem chipReleaseFrame_lastSrc : (chipReleaseFrame s).lastSrc = s.lastSrc := rfl
@[simp] theorem chipReleaseFrame_cbReadAns : (chipReleaseFrame s).cbReadAns = s.cbReadAns := rfl
@[simp] theorem chipReleaseFrame_cbWriteAns : (chipReleaseFrame s).cbWriteAns = s.cbWriteAns := rfl
@[simp] theorem chipReleaseFrame_handlers : (chipReleaseFrame s).handlers = s.handlers := rfl
@[simp] theorem chipReleaseFrame_dispatchEp : (chipReleaseFrame s).dispatchEp = s.dispatchEp := rfl
@[simp] theorem chipReleaseFrame_frames : (chipReleaseFrame s).frames = s.frames := rfl
@[simp] theorem chipReleaseFrame_fault : (chipReleaseFrame s).fault = s.fault := rfl
@[simp] theorem chipReleaseFrame_txBuf : (chipReleaseFrame s).txBuf = s.txBuf := rfl
@[simp] theorem chipReleaseFrame_rxBuf : (chipReleaseFrame s).rxBuf = s.rxBuf := rfl
@[simp] theorem chipReleaseFrame_chip : (chipReleaseFrame s).chip = { s.chip with buffer := .empty } := rfl
@[simp] theorem chipReleaseFrame_clock : (chipReleaseFrame s).clock = s.clock := rfl
@[simp] theorem chipReleaseFrame_port : (chipReleaseFrame s).port = s.port := rfl
@[simp] theorem chipReleaseFrame_result : (chipReleaseFrame s).result = s.result := rfl
@[simp] theorem chipReleaseFrame_sched : (chipReleaseFrame s).sched = s.sched := rfl
@[simp] theorem chipReleaseFrame_draws : (chipReleaseFrame s).draws = s.draws + 1 := rfl
@[simp] theorem chipReleaseFrame_cfg : (chipReleaseFrame s).cfg = s.cfg := rfl

/-! ## drawTx -/

@[simp] theorem drawTx_irqEn : (drawTx s).irqEn = s.irqEn := rfl
@[simp] theorem drawTx_rxWaiting : (drawTx s).rxWaiting = s.rxWaiting := rfl
@[simp] theorem drawTx_rxQueued : (drawTx s).rxQueued = s.rxQueued := rfl
@[simp] theorem drawTx_radioReady : (drawTx s).radioReady = s.radioReady := rfl
@[simp] theorem drawTx_linkReady : (drawTx s).linkReady = s.linkReady := rfl
@[simp] theorem drawTx_appReady : (drawTx s).appReady = s.appReady := rfl
@[simp] theorem drawTx_panId : (drawTx s).panId = s.panId := rfl
@[simp] theorem drawTx_localAddr : (drawTx s).localAddr = s.localAddr := rfl
@[simp] theorem drawTx_dstAddr : (drawTx s).dstAddr = s.dstAddr := rfl
@[simp] theorem drawTx_seq : (drawTx s).seq = s.seq := rfl
@[simp] theorem drawTx_lastSrc : (drawTx s).lastSrc = s.lastSrc := rfl
@[simp] theorem drawTx_cbReadAns : (drawTx s).cbReadAns = s.cbReadAns := rfl
@[simp] theorem drawTx_cbWriteAns : (drawTx s).cbWriteAns = s.cbWriteAns := rfl
@[simp] theorem drawTx_handlers : (drawTx s).handlers = s.handlers := rfl
@[simp] theorem drawTx_dispatchEp : (drawTx s).dispatchEp = s.dispatchEp := rfl
@[simp] theorem drawTx_frames : (drawTx s).frames = s.frames := rfl
@[simp] theorem drawTx_fault : (drawTx s).fault = s.fault := rfl
@[simp] theorem drawTx_txBuf : (drawTx s).txBuf = Buffer.drawn s.draws := rfl
@[simp] theorem drawTx_rxBuf : (drawTx s).rxBuf = s.rxBuf := rfl
@[simp] theorem drawTx_chip : (drawTx s).chip = s.chip := rfl
@[simp] theorem drawTx_clock : (drawTx s).clock = s.clock := rfl
@[simp] theorem drawTx_port : (drawTx s).port = s.port := rfl
@[simp] theorem drawTx_result : (drawTx s).result = s.result := rfl
@[simp] theorem drawTx_sched : (drawTx s).sched = s.sched := rfl
@[simp] theorem drawTx_draws : (drawTx s).draws = s.draws + 1 := rfl
@[simp] theorem drawTx_cfg : (drawTx s).cfg = s.cfg := rfl

/-! ## loadRx -/

@[simp] theorem loadRx_irqEn (len : Byte) (bytes : List Byte) : (loadRx len bytes s).irqEn = s.irqEn := rfl
@[simp] theorem loadRx_rxWaiting (len : Byte) (bytes : List Byte) : (loadRx len bytes s).rxWaiting = s.rxWaiting := rfl
@[simp] theorem loadRx_rxQueued (len : Byte) (bytes : List Byte) : (loadRx len bytes s).rxQueued = s.rxQueued := rfl
@[simp] theorem loadRx_radioReady (len : Byte) (bytes : List Byte) : (loadRx len bytes s).radioReady = s.radioReady := rfl
@[simp] theorem loadRx_linkReady (len : Byte) (bytes : List Byte) : (loadRx len bytes s).linkReady = s.linkReady := rfl
@[simp] theorem loadRx_appReady (len : Byte) (bytes : List Byte) : (loadRx len bytes s).appReady = s.appReady := rfl
@[simp] theorem loadRx_panId (len : Byte) (bytes : List Byte) : (loadRx len bytes s).panId = s.panId := rfl
@[simp] theorem loadRx_localAddr (len : Byte) (bytes : List Byte) : (loadRx len bytes s).localAddr = s.localAddr := rfl
@[simp] theorem loadRx_dstAddr (len : Byte) (bytes : List Byte) : (loadRx len bytes s).dstAddr = s.dstAddr := rfl
@[simp] theorem loadRx_seq (len : Byte) (bytes : List Byte) : (loadRx len bytes s).seq = s.seq := rfl
@[simp] theorem loadRx_lastSrc (len : Byte) (bytes : List Byte) : (loadRx len bytes s).lastSrc = s.lastSrc := rfl
@[simp] theorem loadRx_cbReadAns (len : Byte) (bytes : List Byte) : (loadRx len bytes s).cbReadAns = s.cbReadAns := rfl
@[simp] theorem loadRx_cbWriteAns (len : Byte) (bytes : List Byte) : (loadRx len bytes s).cbWriteAns = s.cbWriteAns := rfl
@[simp] theorem loadRx_handlers (len : Byte) (bytes : List Byte) : (loadRx len bytes s).handlers = s.handlers := rfl
@[simp] theorem loadRx_dispatchEp (len : Byte) (bytes : List Byte) : (loadRx len bytes s).dispatchEp = s.dispatchEp := rfl
@[simp] theorem loadRx_frames (len : Byte) (bytes : List Byte) : (loadRx len bytes s).frames = s.frames := rfl
@[simp] theorem loadRx_fault (len : Byte) (bytes : List Byte) : (loadRx len bytes s).fault = s.fault := rfl
@[simp] theorem loadRx_txBuf (len : Byte) (bytes : List Byte) : (loadRx len bytes s).txBuf = s.txBuf := rfl
@[simp] theorem loadRx_rxBuf (len : Byte) (bytes : List Byte) : (loadRx len bytes s).rxBuf = Buffer.ofFrame len bytes s.draws := rfl
@[simp] theorem loadRx_chip (len : Byte) (bytes : List Byte) : (loadRx len bytes s).chip = s.chip := rfl
@[simp] theorem loadRx_clock (len : Byte) (bytes : List Byte) : (loadRx len bytes s).clock = s.clock := rfl
@[simp] theorem loadRx_port (len : Byte) (bytes : List Byte) : (loadRx len bytes s).port = s.port := rfl
@[simp] theorem loadRx_result (len : Byte) (bytes : List Byte) : (loadRx len bytes s).result = s.result := rfl
@[simp] theorem loadRx_sched (len : Byte) (bytes : List Byte) : (loadRx len bytes s).sched = s.sched := rfl
@[simp] theorem loadRx_draws (len : Byte) (bytes : List Byte) : (loadRx len bytes s).draws = s.draws + 1 := rfl
@[simp] theorem loadRx_cfg (len : Byte) (bytes : List Byte) : (loadRx len bytes s).cfg = s.cfg := rfl

/-! ## clockTick -/

@[simp] theorem clockTick_irqEn (ms : Nat) : (clockTick ms s).irqEn = s.irqEn := rfl
@[simp] theorem clockTick_rxWaiting (ms : Nat) : (clockTick ms s).rxWaiting = s.rxWaiting := rfl
@[simp] theorem clockTick_rxQueued (ms : Nat) : (clockTick ms s).rxQueued = s.rxQueued := rfl
@[simp] theorem clockTick_radioReady (ms : Nat) : (clockTick ms s).radioReady = s.radioReady := rfl
@[simp] theorem clockTick_linkReady (ms : Nat) : (clockTick ms s).linkReady = s.linkReady := rfl
@[simp] theorem clockTick_appReady (ms : Nat) : (clockTick ms s).appReady = s.appReady := rfl
@[simp] theorem clockTick_panId (ms : Nat) : (clockTick ms s).panId = s.panId := rfl
@[simp] theorem clockTick_localAddr (ms : Nat) : (clockTick ms s).localAddr = s.localAddr := rfl
@[simp] theorem clockTick_dstAddr (ms : Nat) : (clockTick ms s).dstAddr = s.dstAddr := rfl
@[simp] theorem clockTick_seq (ms : Nat) : (clockTick ms s).seq = s.seq := rfl
@[simp] theorem clockTick_lastSrc (ms : Nat) : (clockTick ms s).lastSrc = s.lastSrc := rfl
@[simp] theorem clockTick_cbReadAns (ms : Nat) : (clockTick ms s).cbReadAns = s.cbReadAns := rfl
@[simp] theorem clockTick_cbWriteAns (ms : Nat) : (clockTick ms s).cbWriteAns = s.cbWriteAns := rfl
@[simp] theorem clockTick_handlers (ms : Nat) : (clockTick ms s).handlers = s.handlers := rfl
@[simp] theorem clockTick_dispatchEp (ms : Nat) : (clockTick ms s).dispatchEp = s.dispatchEp := rfl
@[simp] theorem clockTick_frames (ms : Nat) : (clockTick ms s).frames = s.frames := rfl
@[simp] theorem clockTick_fault (ms : Nat) : (clockTick ms s).fault = s.fault := rfl
@[simp] theorem clockTick_txBuf (ms : Nat) : (clockTick ms s).txBuf = s.txBuf := rfl
@[simp] theorem clockTick_rxBuf (ms : Nat) : (clockTick ms s).rxBuf = s.rxBuf := rfl
@[simp] theorem clockTick_chip (ms : Nat) : (clockTick ms s).chip = s.chip := rfl
@[simp] theorem clockTick_clock (ms : Nat) : (clockTick ms s).clock = s.clock + ms := rfl
@[simp] theorem clockTick_port (ms : Nat) : (clockTick ms s).port = s.port := rfl
@[simp] theorem clockTick_result (ms : Nat) : (clockTick ms s).result = s.result := rfl
@[simp] theorem clockTick_sched (ms : Nat) : (clockTick ms s).sched = s.sched := rfl
@[simp] theorem clockTick_draws (ms : Nat) : (clockTick ms s).draws = s.draws := rfl
@[simp] theorem clockTick_cfg (ms : Nat) : (clockTick ms s).cfg = s.cfg := rfl

/-! ## hostPut -/

@[simp] theorem hostPut_irqEn (bytes : List Byte) : (hostPut bytes s).irqEn = s.irqEn := rfl
@[simp] theorem hostPut_rxWaiting (bytes : List Byte) : (hostPut bytes s).rxWaiting = s.rxWaiting := rfl
@[simp] theorem hostPut_rxQueued (bytes : List Byte) : (hostPut bytes s).rxQueued = s.rxQueued := rfl
@[simp] theorem hostPut_radioReady (bytes : List Byte) : (hostPut bytes s).radioReady = s.radioReady := rfl
@[simp] theorem hostPut_linkReady (bytes : List Byte) : (hostPut bytes s).linkReady = s.linkReady := rfl
@[simp] theorem hostPut_appReady (bytes : List Byte) : (hostPut bytes s).appReady = s.appReady := rfl
@[simp] theorem hostPut_panId (bytes : List Byte) : (hostPut bytes s).panId = s.panId := rfl
@[simp] theorem hostPut_localAddr (bytes : List Byte) : (hostPut bytes s).localAddr = s.localAddr := rfl
@[simp] theorem hostPut_dstAddr (bytes : List Byte) : (hostPut bytes s).dstAddr = s.dstAddr := rfl
@[simp] theorem hostPut_seq (bytes : List Byte) : (hostPut bytes s).seq = s.seq := rfl
@[simp] theorem hostPut_lastSrc (bytes : List Byte) : (hostPut bytes s).lastSrc = s.lastSrc := rfl
@[simp] theorem hostPut_cbReadAns (bytes : List Byte) : (hostPut bytes s).cbReadAns = s.cbReadAns := rfl
@[simp] theorem hostPut_cbWriteAns (bytes : List Byte) : (hostPut bytes s).cbWriteAns = s.cbWriteAns := rfl
@[simp] theorem hostPut_handlers (bytes : List Byte) : (hostPut bytes s).handlers = s.handlers := rfl
@[simp] theorem hostPut_dispatchEp (bytes : List Byte) : (hostPut bytes s).dispatchEp = s.dispatchEp := rfl
@[simp] theorem hostPut_frames (bytes : List Byte) : (hostPut bytes s).frames = s.frames := rfl
@[simp] theorem hostPut_fault (bytes : List Byte) : (hostPut bytes s).fault = s.fault := rfl
@[simp] theorem hostPut_txBuf (bytes : List Byte) : (hostPut bytes s).txBuf = s.txBuf := rfl
@[simp] theorem hostPut_rxBuf (bytes : List Byte) : (hostPut bytes s).rxBuf = s.rxBuf := rfl
@[simp] theorem hostPut_chip (bytes : List Byte) : (hostPut bytes s).chip = s.chip := rfl
@[simp] theorem hostPut_clock (bytes : List Byte) : (hostPut bytes s).clock = s.clock := rfl
@[simp] theorem hostPut_port (bytes : List Byte) : (hostPut bytes s).port = s.port ++ bytes := rfl
@[simp] theorem hostPut_result (bytes : List Byte) : (hostPut bytes s).result = s.result := rfl
@[simp] theorem hostPut_sched (bytes : List Byte) : (hostPut bytes s).sched = s.sched := rfl
@[simp] theorem hostPut_draws (bytes : List Byte) : (hostPut bytes s).draws = s.draws := rfl
@[simp] theorem hostPut_cfg (bytes : List Byte) : (hostPut bytes s).cfg = s.cfg := rfl

/-! ## putFrameControl -/

@[simp] theorem putFrameControl_irqEn (fc : Half) : (putFrameControl fc s).irqEn = s.irqEn := rfl
@[simp] theorem putFrameControl_rxWaiting (fc : Half) : (putFrameControl fc s).rxWaiting = s.rxWaiting := rfl
@[simp] theorem putFrameControl_rxQueued (fc : Half) : (putFrameControl fc s).rxQueued = s.rxQueued := rfl
@[simp] theorem putFrameControl_radioReady (fc : Half) : (putFrameControl fc s).radioReady = s.radioReady := rfl
@[simp] theorem putFrameControl_linkReady (fc : Half) : (putFrameControl fc s).linkReady = s.linkReady := rfl
@[simp] theorem putFrameControl_appReady (fc : Half) : (putFrameControl fc s).appReady = s.appReady := rfl
@[simp] theorem putFrameControl_panId (fc : Half) : (putFrameControl fc s).panId = s.panId := rfl
@[simp] theorem putFrameControl_localAddr (fc : Half) : (putFrameControl fc s).localAddr = s.localAddr := rfl
@[simp] theorem putFrameControl_dstAddr (fc : Half) : (putFrameControl fc s).dstAddr = s.dstAddr := rfl
@[simp] theorem putFrameControl_seq (fc : Half) : (putFrameControl fc s).seq = s.seq := rfl
@[simp] theorem putFrameControl_lastSrc (fc : Half) : (putFrameControl fc s).lastSrc = s.lastSrc := rfl
@[simp] theorem putFrameControl_cbReadAns (fc : Half) : (putFrameControl fc s).cbReadAns = s.cbReadAns := rfl
@[simp] theorem putFrameControl_cbWriteAns (fc : Half) : (putFrameControl fc s).cbWriteAns = s.cbWriteAns := rfl
@[simp] theorem putFrameControl_handlers (fc : Half) : (putFrameControl fc s).handlers = s.handlers := rfl
@[simp] theorem putFrameControl_dispatchEp (fc : Half) : (putFrameControl fc s).dispatchEp = s.dispatchEp := rfl
@[simp] theorem putFrameControl_frames (fc : Half) : (putFrameControl fc s).frames = s.frames := rfl
@[simp] theorem putFrameControl_fault (fc : Half) : (putFrameControl fc s).fault = s.fault := rfl
@[simp] theorem putFrameControl_txBuf (fc : Half) : (putFrameControl fc s).txBuf = s.txBuf.putLE16 0 fc := rfl
@[simp] theorem putFrameControl_rxBuf (fc : Half) : (putFrameControl fc s).rxBuf = s.rxBuf := rfl
@[simp] theorem putFrameControl_chip (fc : Half) : (putFrameControl fc s).chip = s.chip := rfl
@[simp] theorem putFrameControl_clock (fc : Half) : (putFrameControl fc s).clock = s.clock := rfl
@[simp] theorem putFrameControl_port (fc : Half) : (putFrameControl fc s).port = s.port := rfl
@[simp] theorem putFrameControl_result (fc : Half) : (putFrameControl fc s).result = s.result := rfl
@[simp] theorem putFrameControl_sched (fc : Half) : (putFrameControl fc s).sched = s.sched := rfl
@[simp] theorem putFrameControl_draws (fc : Half) : (putFrameControl fc s).draws = s.draws := rfl
@[simp] theorem putFrameControl_cfg (fc : Half) : (putFrameControl fc s).cfg = s.cfg := rfl

/-! ## linkEncapBody -/

@[simp] theorem linkEncapBody_irqEn (n : Nat) : (linkEncapBody n s).irqEn = s.irqEn := rfl
@[simp] theorem linkEncapBody_rxWaiting (n : Nat) : (linkEncapBody n s).rxWaiting = s.rxWaiting := rfl
@[simp] theorem linkEncapBody_rxQueued (n : Nat) : (linkEncapBody n s).rxQueued = s.rxQueued := rfl
@[simp] theorem linkEncapBody_radioReady (n : Nat) : (linkEncapBody n s).radioReady = s.radioReady := rfl
@[simp] theorem linkEncapBody_linkReady (n : Nat) : (linkEncapBody n s).linkReady = s.linkReady := rfl
@[simp] theorem linkEncapBody_appReady (n : Nat) : (linkEncapBody n s).appReady = s.appReady := rfl
@[simp] theorem linkEncapBody_panId (n : Nat) : (linkEncapBody n s).panId = s.panId := rfl
@[simp] theorem linkEncapBody_localAddr (n : Nat) : (linkEncapBody n s).localAddr = s.localAddr := rfl
@[simp] theorem linkEncapBody_dstAddr (n : Nat) : (linkEncapBody n s).dstAddr = s.dstAddr := rfl
@[simp] theorem linkEncapBody_seq (n : Nat) : (linkEncapBody n s).seq = s.seq + 1 := rfl
@[simp] theorem linkEncapBody_lastSrc (n : Nat) : (linkEncapBody n s).lastSrc = s.lastSrc := rfl
@[simp] theorem linkEncapBody_cbReadAns (n : Nat) : (linkEncapBody n s).cbReadAns = s.cbReadAns := rfl
@[simp] theorem linkEncapBody_cbWriteAns (n : Nat) : (linkEncapBody n s).cbWriteAns = s.cbWriteAns := rfl
@[simp] theorem linkEncapBody_handlers (n : Nat) : (linkEncapBody n s).handlers = s.handlers := rfl
@[simp] theorem linkEncapBody_dispatchEp (n : Nat) : (linkEncapBody n s).dispatchEp = s.dispatchEp := rfl
@[simp] theorem linkEncapBody_frames (n : Nat) : (linkEncapBody n s).frames = s.frames := rfl
@[simp] theorem linkEncapBody_fault (n : Nat) : (linkEncapBody n s).fault = s.fault := rfl
@[simp] theorem linkEncapBody_rxBuf (n : Nat) : (linkEncapBody n s).rxBuf = s.rxBuf := rfl
@[simp] theorem linkEncapBody_chip (n : Nat) : (linkEncapBody n s).chip = s.chip := rfl
@[simp] theorem linkEncapBody_clock (n : Nat) : (linkEncapBody n s).clock = s.clock := rfl
@[simp] theorem linkEncapBody_port (n : Nat) : (linkEncapBody n s).port = s.port := rfl
@[simp] theorem linkEncapBody_result (n : Nat) : (linkEncapBody n s).result = s.result := rfl
@[simp] theorem linkEncapBody_sched (n : Nat) : (linkEncapBody n s).sched = s.sched := rfl
@[simp] theorem linkEncapBody_draws (n : Nat) : (linkEncapBody n s).draws = s.draws := rfl
@[simp] theorem linkEncapBody_cfg (n : Nat) : (linkEncapBody n s).cfg = s.cfg := rfl

/-! ## popEvent -/

@[simp] theorem popEvent_irqEn (rest : List Event) : (popEvent rest s).irqEn = s.irqEn := rfl
@[simp] theorem popEvent_rxWaiting (rest : List Event) : (popEvent rest s).rxWaiting = s.rxWaiting := rfl
@[simp] theorem popEvent_rxQueued (rest : List Event) : (popEvent rest s).rxQueued = s.rxQueued := rfl
@[simp] theorem popEvent_radioReady (rest : List Event) : (popEvent rest s).radioReady = s.radioReady := rfl
@[simp] theorem popEvent_linkReady (rest : List Event) : (popEvent rest s).linkReady = s.linkReady := rfl
@[simp] theorem popEvent_appReady (rest : List Event) : (popEvent rest s).appReady = s.appReady := rfl
@[simp] theorem popEvent_panId (rest : List Event) : (popEvent rest s).panId = s.panId := rfl
@[simp] theorem popEvent_localAddr (rest : List Event) : (popEvent rest s).localAddr = s.localAddr := rfl
@[simp] theorem popEvent_dstAddr (rest : List Event) : (popEvent rest s).dstAddr = s.dstAddr := rfl
@[simp] theorem popEvent_seq (rest : List Event) : (popEvent rest s).seq = s.seq := rfl
@[simp] theorem popEvent_lastSrc (rest : List Event) : (popEvent rest s).lastSrc = s.lastSrc := rfl
@[simp] theorem popEvent_cbReadAns (rest : List Event) : (popEvent rest s).cbReadAns = s.cbReadAns := rfl
@[simp] theorem popEvent_cbWriteAns (rest : List Event) : (popEvent rest s).cbWriteAns = s.cbWriteAns := rfl
@[simp] theorem popEvent_handlers (rest : List Event) : (popEvent rest s).handlers = s.handlers := rfl
@[simp] theorem popEvent_dispatchEp (rest : List Event) : (popEvent rest s).dispatchEp = s.dispatchEp := rfl
@[simp] theorem popEvent_frames (rest : List Event) : (popEvent rest s).frames = s.frames := rfl
@[simp] theorem popEvent_fault (rest : List Event) : (popEvent rest s).fault = s.fault := rfl
@[simp] theorem popEvent_txBuf (rest : List Event) : (popEvent rest s).txBuf = s.txBuf := rfl
@[simp] theorem popEvent_rxBuf (rest : List Event) : (popEvent rest s).rxBuf = s.rxBuf := rfl
@[simp] theorem popEvent_chip (rest : List Event) : (popEvent rest s).chip = s.chip := rfl
@[simp] theorem popEvent_clock (rest : List Event) : (popEvent rest s).clock = s.clock := rfl
@[simp] theorem popEvent_port (rest : List Event) : (popEvent rest s).port = s.port := rfl
@[simp] theorem popEvent_result (rest : List Event) : (popEvent rest s).result = s.result := rfl
@[simp] theorem popEvent_sched (rest : List Event) : (popEvent rest s).sched = rest := rfl
@[simp] theorem popEvent_draws (rest : List Event) : (popEvent rest s).draws = s.draws := rfl
@[simp] theorem popEvent_cfg (rest : List Event) : (popEvent rest s).cfg = s.cfg := rfl

/-! ## acceptFrame -/

@[simp] theorem acceptFrame_irqEn : (acceptFrame s).irqEn = s.irqEn := rfl
@[simp] theorem acceptFrame_rxWaiting : (acceptFrame s).rxWaiting = s.rxWaiting := rfl
@[simp] theorem acceptFrame_rxQueued : (acceptFrame s).rxQueued = s.rxQueued := rfl
@[simp] theorem acceptFrame_radioReady : (acceptFrame s).radioReady = s.radioReady := rfl
@[simp] theorem acceptFrame_linkReady : (acceptFrame s).linkReady = s.linkReady := rfl
@[simp] theorem acceptFrame_appReady : (acceptFrame s).appReady = s.appReady := rfl
@[simp] theorem acceptFrame_panId : (acceptFrame s).panId = s.panId := rfl
@[simp] theorem acceptFrame_localAddr : (acceptFrame s).localAddr = s.localAddr := rfl
@[simp] theorem acceptFrame_dstAddr : (acceptFrame s).dstAddr = s.dstAddr := rfl
@[simp] theorem acceptFrame_seq : (acceptFrame s).seq = s.seq := rfl
@[simp] theorem acceptFrame_lastSrc : (acceptFrame s).lastSrc = s.rxBuf.getLE16 8 := rfl
@[simp] theorem acceptFrame_cbReadAns : (acceptFrame s).cbReadAns = s.cbReadAns := rfl
@[simp] theorem acceptFrame_cbWriteAns : (acceptFrame s).cbWriteAns = s.cbWriteAns := rfl
@[simp] theorem acceptFrame_handlers : (acceptFrame s).handlers = s.handlers := rfl
@[simp] theorem acceptFrame_dispatchEp : (acceptFrame s).dispatchEp = s.dispatchEp := rfl
@[simp] theorem acceptFrame_frames : (acceptFrame s).frames = s.frames := rfl
@[simp] theorem acceptFrame_fault : (acceptFrame s).fault = s.fault := rfl
@[simp] theorem acceptFrame_txBuf : (acceptFrame s).txBuf = s.txBuf := rfl
@[simp] theorem acceptFrame_rxBuf : (acceptFrame s).rxBuf = s.rxBuf := rfl
@[simp] theorem acceptFrame_chip : (acceptFrame s).chip = s.chip := rfl
@[simp] theorem acceptFrame_clock : (acceptFrame s).clock = s.clock := rfl
@[simp] theorem acceptFrame_port : (acceptFrame s).port = s.port := rfl
@[simp] theorem acceptFrame_result : (acceptFrame s).result = s.result := rfl
@[simp] theorem acceptFrame_sched : (acceptFrame s).sched = s.sched := rfl
@[simp] theorem acceptFrame_draws : (acceptFrame s).draws = s.draws := rfl
@[simp] theorem acceptFrame_cfg : (acceptFrame s).cfg = s.cfg := rfl

/-! ## putAppHeader -/

@[simp] theorem putAppHeader_irqEn (cmd ep : Byte) : (putAppHeader cmd ep s).irqEn = s.irqEn := rfl
@[simp] theorem putAppHeader_rxWaiting (cmd ep : Byte) : (putAppHeader cmd ep s).rxWaiting = s.rxWaiting := rfl
@[simp] theorem putAppHeader_rxQueued (cmd ep : Byte) : (putAppHeader cmd ep s).rxQueued = s.rxQueued := rfl
@[simp] theorem putAppHeader_radioReady (cmd ep : Byte) : (putAppHeader cmd ep s).radioReady = s.radioReady := rfl
@[simp] theorem putAppHeader_linkReady (cmd ep : Byte) : (putAppHeader cmd ep s).linkReady = s.linkReady := rfl
@[simp] theorem putAppHeader_appReady (cmd ep : Byte) : (putAppHeader cmd ep s).appReady = s.appReady := rfl
@[simp] theorem putAppHeader_panId (cmd ep : Byte) : (putAppHeader cmd ep s).panId = s.panId := rfl
@[simp] theorem putAppHeader_localAddr (cmd ep : Byte) : (putAppHeader cmd ep s).localAddr = s.localAddr := rfl
@[simp] theorem putAppHeader_dstAddr (cmd ep : Byte) : (putAppHeader cmd ep s).dstAddr = s.dstAddr := rfl
@[simp] theorem putAppHeader_seq (cmd ep : Byte) : (putAppHeader cmd ep s).seq = s.seq := rfl
@[simp] theorem putAppHeader_lastSrc (cmd ep : Byte) : (putAppHeader cmd ep s).lastSrc = s.lastSrc := rfl
@[simp] theorem putAppHeader_cbReadAns (cmd ep : Byte) : (putAppHeader cmd ep s).cbReadAns = s.cbReadAns := rfl
@[simp] theorem putAppHeader_cbWriteAns (cmd ep : Byte) : (putAppHeader cmd ep s).cbWriteAns = s.cbWriteAns := rfl
@[simp] theorem putAppHeader_handlers (cmd ep : Byte) : (putAppHeader cmd ep s).handlers = s.handlers := rfl
@[simp] theorem putAppHeader_dispatchEp (cmd ep : Byte) : (putAppHeader cmd ep s).dispatchEp = s.dispatchEp := rfl
@[simp] theorem putAppHeader_frames (cmd ep : Byte) : (putAppHeader cmd ep s).frames = s.frames := rfl
@[simp] theorem putAppHeader_fault (cmd ep : Byte) : (putAppHeader cmd ep s).fault = s.fault := rfl
@[simp] theorem putAppHeader_txBuf (cmd ep : Byte) : (putAppHeader cmd ep s).txBuf = (s.txBuf.write txLinkOff cmd).write (txLinkOff + 1) ep := rfl
@[simp] theorem putAppHeader_rxBuf (cmd ep : Byte) : (putAppHeader cmd ep s).rxBuf = s.rxBuf := rfl
@[simp] theorem putAppHeader_chip (cmd ep : Byte) : (putAppHeader cmd ep s).chip = s.chip := rfl
@[simp] theorem putAppHeader_clock (cmd ep : Byte) : (putAppHeader cmd ep s).clock = s.clock := rfl
@[simp] theorem putAppHeader_port (cmd ep : Byte) : (putAppHeader cmd ep s).port = s.port := rfl
@[simp] theorem putAppHeader_result (cmd ep : Byte) : (putAppHeader cmd ep s).result = s.result := rfl
@[simp] theorem putAppHeader_sched (cmd ep : Byte) : (putAppHeader cmd ep s).sched = s.sched := rfl
@[simp] theorem putAppHeader_draws (cmd ep : Byte) : (putAppHeader cmd ep s).draws = s.draws := rfl
@[simp] theorem putAppHeader_cfg (cmd ep : Byte) : (putAppHeader cmd ep s).cfg = s.cfg := rfl

/-! ## The agents' moves -/

@[simp] theorem chipMove_irqEn (m : ChipMove) : (chipMove m s).irqEn = s.irqEn := by cases m <;> rfl
@[simp] theorem chipMove_rxWaiting (m : ChipMove) : (chipMove m s).rxWaiting = s.rxWaiting := by cases m <;> rfl
@[simp] theorem chipMove_rxQueued (m : ChipMove) : (chipMove m s).rxQueued = s.rxQueued := by cases m <;> rfl
@[simp] theorem chipMove_radioReady (m : ChipMove) : (chipMove m s).radioReady = s.radioReady := by cases m <;> rfl
@[simp] theorem chipMove_linkReady (m : ChipMove) : (chipMove m s).linkReady = s.linkReady := by cases m <;> rfl
@[simp] theorem chipMove_appReady (m : ChipMove) : (chipMove m s).appReady = s.appReady := by cases m <;> rfl
@[simp] theorem chipMove_panId (m : ChipMove) : (chipMove m s).panId = s.panId := by cases m <;> rfl
@[simp] theorem chipMove_localAddr (m : ChipMove) : (chipMove m s).localAddr = s.localAddr := by cases m <;> rfl
@[simp] theorem chipMove_dstAddr (m : ChipMove) : (chipMove m s).dstAddr = s.dstAddr := by cases m <;> rfl
@[simp] theorem chipMove_seq (m : ChipMove) : (chipMove m s).seq = s.seq := by cases m <;> rfl
@[simp] theorem chipMove_lastSrc (m : ChipMove) : (chipMove m s).lastSrc = s.lastSrc := by cases m <;> rfl
@[simp] theorem chipMove_cbReadAns (m : ChipMove) : (chipMove m s).cbReadAns = s.cbReadAns := by cases m <;> rfl
@[simp] theorem chipMove_cbWriteAns (m : ChipMove) : (chipMove m s).cbWriteAns = s.cbWriteAns := by cases m <;> rfl
@[simp] theorem chipMove_handlers (m : ChipMove) : (chipMove m s).handlers = s.handlers := by cases m <;> rfl
@[simp] theorem chipMove_dispatchEp (m : ChipMove) : (chipMove m s).dispatchEp = s.dispatchEp := by cases m <;> rfl
@[simp] theorem chipMove_frames (m : ChipMove) : (chipMove m s).frames = s.frames := by cases m <;> rfl
@[simp] theorem chipMove_fault (m : ChipMove) : (chipMove m s).fault = s.fault := by cases m <;> rfl
@[simp] theorem chipMove_txBuf (m : ChipMove) : (chipMove m s).txBuf = s.txBuf := by cases m <;> rfl
@[simp] theorem chipMove_rxBuf (m : ChipMove) : (chipMove m s).rxBuf = s.rxBuf := by cases m <;> rfl
@[simp] theorem chipMove_clock (m : ChipMove) : (chipMove m s).clock = s.clock := by cases m <;> rfl
@[simp] theorem chipMove_port (m : ChipMove) : (chipMove m s).port = s.port := by cases m <;> rfl
@[simp] theorem chipMove_result (m : ChipMove) : (chipMove m s).result = s.result := by cases m <;> rfl
@[simp] theorem chipMove_sched (m : ChipMove) : (chipMove m s).sched = s.sched := by cases m <;> rfl
@[simp] theorem chipMove_draws (m : ChipMove) : (chipMove m s).draws = s.draws := by cases m <;> rfl
@[simp] theorem chipMove_cfg (m : ChipMove) : (chipMove m s).cfg = s.cfg := by cases m <;> rfl

/-! ## The top frame -/

@[simp] theorem goto_frames_cons (pc : Pc) (f : Frame) (rest : List Frame) (h : s.frames = f :: rest) :
    (goto pc s).frames = { f with pc := pc } :: rest := by simp [goto, h]

@[simp] theorem goto_frames_nil (pc : Pc) (h : s.frames = []) : (goto pc s).frames = [] := by simp [goto, h]

/-- Moving the top frame's label leaves the rest of the stack. -/
@[simp] theorem goto_frames_tail (pc : Pc) : (goto pc s).frames.tail = s.frames.tail := by
  unfold goto; cases s.frames <;> rfl

/-- Only the last label counts. -/
@[simp] theorem goto_goto (a b : Pc) : goto a (goto b s) = goto a s := by
  unfold goto; cases s.frames <;> rfl

/-- An operation that ends in the micro-step that issued it leaves the stack as it was. -/
@[simp] theorem finish_push (op : Instr) (r : Result) : finish r (push op s) = { s with result := some r } := rfl

/-- Ending an operation forgets its label. -/
@[simp] theorem finish_goto (pc : Pc) (r : Result) : finish r (goto pc s) = finish r s := by
  simp only [finish, goto]; cases s.frames <;> rfl

end Sys2Proof.Machine
end

