-- ==== Sys2Proof/Laws/Ops.lean ====
section
/-! SUPPORT. What each shared operation can do, said once: raising, issuing, upcalls, pulls, the ISR, fetching, and a step. -/

namespace Sys2Proof.Machine

/-! ## Raising and issuing -/

theorem raise_eq_next (r : Fault) (s : State) : raise r s = .next { s with fault := some r } := rfl

theorem issue_ready {b : SubBlock} {s : State} (h : isReady s b = true) (op : Instr) (first : State → Outcome) :
    issue b op first s = first (push op s) := by simp [issue, h]

theorem issue_not_ready {b : SubBlock} {s : State} (h : isReady s b = false) (op : Instr) (first : State → Outcome) :
    issue b op first s = .next { s with fault := some .notInitialised } := by simp [issue, h, raise]

/-- Issuing runs the first micro-step with the frame pushed, or raises NOT_INITIALISED and nothing else. -/
theorem issue_cases {b : SubBlock} {op : Instr} {first : State → Outcome} {s : State} {o : Outcome}
    (h : issue b op first s = o) :
    isReady s b = true ∧ first (push op s) = o ∨
      isReady s b = false ∧ o = .next { s with fault := some .notInitialised } := by
  cases hr : isReady s b
  · exact .inr ⟨rfl, by rw [← h, issue_not_ready hr]⟩
  · exact .inl ⟨rfl, by rw [← h, issue_ready hr]⟩

/-- A command whose first micro-step is its last answers when ready, and faults otherwise. -/
theorem issue_answers {b : SubBlock} {op i : Instr} {first : State → Outcome} {s t : State}
    (hi : exec i s = issue b op first s) (hf : first (push op s) = .next t) : answersWhenReady b i s t :=
  ⟨fun h => by rw [hi, issue_ready h, hf], fun h => by rw [hi, issue_not_ready h]⟩

/-! ## Upcalls -/

theorem upcall_of_room {u : Upcall} {pc : Pc} {s w : State} (h : outstanding s ≠ maxUpcallDepth s.cfg) :
    upcall u pc s w = .next (suspend u pc w) := by simp [upcall, h]

theorem upcall_of_full {u : Upcall} {pc : Pc} {s w : State} (h : outstanding s = maxUpcallDepth s.cfg) :
    upcall u pc s w = .next { s with fault := some .upcallDepth } := by simp [upcall, h, raise]

/-- An upcall is presented, or faults and writes nothing else (R150). -/
theorem upcall_cases {u : Upcall} {pc : Pc} {s w t : State} (h : upcall u pc s w = .next t) :
   t = { s with fault := some .upcallDepth } ∨ t = suspend u pc w ∧ outstanding s ≠ maxUpcallDepth s.cfg := by
  unfold upcall at h; split at h <;> cases h
  · exact .inl rfl
  · exact .inr ⟨rfl, ‹_›⟩

/-! ## Frames from the chip -/

@[simp] theorem takeBytes_length (draw n i : Nat) (bytes : List Byte) : (takeBytes draw n i bytes).length = n := by
  induction n generalizing i bytes with
  | zero => rfl
  | succ n ih => cases bytes <;> simp [takeBytes, ih]

theorem takeBytes_exact (draw i : Nat) (bytes : List Byte) : takeBytes draw bytes.length i bytes = bytes := by
  induction bytes generalizing i with
  | nil => rfl
  | cons b rest ih => simp [takeBytes, ih]

/-- `ChipReadFrame()` answers exactly as many bytes as its length byte says (R161 CH3). -/
theorem chipFrame_length (s : State) : (chipFrame s).2.length = (chipFrame s).1.toNat := by
  unfold chipFrame; cases s.chip.buffer <;> simp

theorem chipFrame_received {s : State} {len : Byte} {bytes : List Byte} (h : s.chip.buffer = .received len bytes)
    (hl : bytes.length = len.toNat) : chipFrame s = (len, bytes) := by
  simp only [chipFrame, h]
  rw [← hl, takeBytes_exact]

/-- A frame the chip does not hold has at most 127 bytes, and a held one as many as its length byte says. -/
theorem chipFrame_len_le {s : State} (h : heldFrameOk s.chip.buffer) : (chipFrame s).1.toNat ≤ radioMtu := by
  have hfree : ∀ b : BitVec 7, (b.zeroExtend 8).toNat ≤ 127 := fun b => by
    have := b.isLt
    simp only [BitVec.truncate_eq_setWidth, BitVec.toNat_setWidth]
    omega
  unfold chipFrame
  cases hb : s.chip.buffer with
  | received len bytes => rw [hb] at h; exact h.1
  | empty => exact hfree _
  | written _ _ => exact hfree _

theorem pullFrame_of_le {s : State} (h : (chipFrame s).1.toNat ≤ radioMtu) (flags : State → State) :
    pullFrame s flags = .next (flags (loadRx (chipFrame s).1 (chipFrame s).2 (chipReleaseFrame s))) := by
  simp [pullFrame, show ¬ (chipFrame s).1.toNat > radioMtu by omega]

theorem pullFrame_of_gt {s : State} (h : radioMtu < (chipFrame s).1.toNat) (flags : State → State) :
    pullFrame s flags = .next { chipReleaseFrame s with fault := some .chipLength } := by
  simp [pullFrame, h, raise]

/-- A pull loads the frame and writes the flags, or faults with the chip's release left in place (R175, R178). -/
theorem pullFrame_cases {s t : State} {g : State → State} (h : pullFrame s g = .next t) :
    t = { chipReleaseFrame s with fault := some .chipLength } ∧ radioMtu < (chipFrame s).1.toNat ∨
      t = g (loadRx (chipFrame s).1 (chipFrame s).2 (chipReleaseFrame s)) ∧ (chipFrame s).1.toNat ≤ radioMtu := by
  unfold pullFrame at h; split at h <;> cases h
  · exact .inl ⟨rfl, ‹_›⟩
  · exact .inr ⟨rfl, by omega⟩

/-- The ISR finds nothing, queues, or pulls (R175). -/
theorem isr_cases {s t : State} (h : isr s = .next t) :
    t = clearIrqStatus s ∨ (t = { clearIrqStatus s with rxQueued := true } ∧ s.rxWaiting = true) ∨
   (s.rxWaiting = false ∧ pullFrame (clearIrqStatus s) (fun t => { t with rxWaiting := true }) = .next t) := by
  unfold isr at h
  cases h1 : irqRxDone s.cfg s.chip.regs.irqStatus <;> cases h2 : s.rxWaiting <;>
    simp only [h1, h2, cond_true, cond_false] at h
  · cases h; exact .inl rfl
  · cases h; exact .inl rfl
  · exact .inr (.inr ⟨rfl, h⟩)
  · cases h; exact .inr (.inl ⟨rfl, rfl⟩)

/-! ## Steps -/

/-- What the block's own step does: a micro-step, or an instruction executed. -/
def ownStep (s t : State) : Prop := fetch s = .done (.next t) ∨ ∃ i v, fetch s = .instr i v ∧ exec i v = .next t

theorem ownStep_of_execFetch {s t : State} (h : execFetch (fetch s) = .next t) : ownStep s t := by
  cases hf : fetch s with
  | done o => rw [hf] at h; exact .inl (by rw [hf, show o = .next t from h])
  | instr i v => rw [hf] at h; exact .inr ⟨i, v, hf, h⟩

theorem step_live {s : State} (h : s.fault = none) : step s = execFetch (fetchLive s) := by
  unfold step nextFetch; rw [h]

theorem step_event {s : State} {e : Event} {rest : List Event} (h : s.fault = none) (hs : s.sched = e :: rest) :
    step s = execFetch (fetchEvent e (popEvent rest s)) := by
  rw [step_live h]; unfold fetchLive; rw [hs]

theorem step_faulted {s : State} {r : Fault} (h : s.fault = some r) (hs : ∀ rest, s.sched ≠ .reset :: rest) :
    step s = .fault r := by
  unfold step nextFetch
  rw [h]
  cases hc : s.sched with
  | nil => rfl
  | cons e rest =>
    cases e <;> first | rfl | exact absurd hc (hs rest)

theorem step_reset {s : State} {rest : List Event} (hs : s.sched = .reset :: rest) :
    step s = .next (resetEvent (popEvent rest s)) := by
  cases hf : s.fault with
  | none => rw [step_event hf hs]; rfl
  | some r => unfold step nextFetch; rw [hf]; simp only [hs]; rfl

/-- Whatever is next, a step that answers a next state is a reset event, another agent's move, or the block's own. -/
theorem step_cases {s t : State} (h : step s = .next t) :
    (∃ rest, s.sched = .reset :: rest ∧ t = resetEvent (popEvent rest s)) ∨
    s.fault = none ∧
      ((∃ rest, s.sched = .isr :: rest ∧ s.irqEn = true ∧ isr (popEvent rest s) = .next t) ∨
       (∃ rest, s.sched = .isr :: rest ∧ s.irqEn = false ∧ t = popEvent rest s) ∨
       (∃ m rest, s.sched = .chip m :: rest ∧ t = chipMove m (popEvent rest s)) ∨
       (∃ ms rest, s.sched = .tick ms :: rest ∧ t = clockTick ms (popEvent rest s)) ∨
       (∃ bytes rest, s.sched = .host bytes :: rest ∧ t = hostPut bytes (popEvent rest s)) ∨
       (s.sched = [] ∧ ownStep s t) ∨
       (∃ rest, s.sched = .go :: rest ∧ ownStep (popEvent rest s) t)) := by
  by_cases hr : ∃ rest, s.sched = .reset :: rest
  · obtain ⟨rest, hs⟩ := hr
    rw [step_reset hs] at h
    exact .inl ⟨rest, hs, by cases h; rfl⟩
  push Not at hr
  cases hf : s.fault with
  | some r => rw [step_faulted hf hr] at h; cases h
  | none =>
    refine .inr ⟨rfl, ?_⟩
    cases hs : s.sched with
    | nil =>
      rw [step_live hf] at h; unfold fetchLive at h; rw [hs] at h
      exact .inr (.inr (.inr (.inr (.inr (.inl ⟨rfl, ownStep_of_execFetch h⟩)))))
    | cons e rest =>
      rw [step_event hf hs] at h
      cases e with
      | reset => exact absurd hs (hr rest)
      | go => exact .inr (.inr (.inr (.inr (.inr (.inr ⟨rest, rfl, ownStep_of_execFetch h⟩)))))
      | chip m => exact .inr (.inr (.inl ⟨m, rest, rfl, by cases h; rfl⟩))
      | tick ms => exact .inr (.inr (.inr (.inl ⟨ms, rest, rfl, by cases h; rfl⟩)))
      | host bytes => exact .inr (.inr (.inr (.inr (.inl ⟨bytes, rest, rfl, by cases h; rfl⟩))))
      | isr =>
        have h' : isrIfEnabled (popEvent rest s) = .next t := h
        unfold isrIfEnabled at h'
        rw [popEvent_irqEn] at h'
        cases hi : s.irqEn with
        | false => rw [hi] at h'; exact .inr (.inl ⟨rest, rfl, rfl, by cases h'; rfl⟩)
        | true => rw [hi] at h'; exact .inl ⟨rest, rfl, rfl, h'⟩

/-- With no event waiting and the run not ended, a step is the block's own. -/
theorem step_undisturbed {s : State} (h : undisturbed s) : step s = execFetch (fetch s) := by
  rw [step_live h.2]; unfold fetchLive; rw [h.1]

/-- A `go` event gives the block its own step. -/
theorem step_go {s : State} {rest : List Event} (hs : s.sched = .go :: rest) (hf : s.fault = none) :
    step s = execFetch (fetch (popEvent rest s)) := step_event hf hs

/-- A running frame's step is the micro-step at its label. -/
theorem fetch_running {s : State} {f : Frame} {rest : List Frame} (h : s.frames = f :: rest) (hu : f.upcall = none) :
    fetch s = fetchStep f.pc s := by simp [fetch, h, hu]

theorem runningAt_eq_some {s : State} {pc : Pc} :
    runningAt s = some pc ↔ ∃ f rest, s.frames = f :: rest ∧ f.upcall = none ∧ f.pc = pc := by
  unfold runningAt
  cases hf : s.frames with
  | nil => simp
  | cons f rest => cases hu : f.upcall <;> simp [hu]

theorem fetch_runningAt {s : State} {pc : Pc} (h : runningAt s = some pc) : fetch s = fetchStep pc s := by
  obtain ⟨f, rest, h1, h2, rfl⟩ := runningAt_eq_some.mp h
  exact fetch_running h1 h2

theorem fetch_mayIssue {s : State} (h : hostMayIssue s = true) : fetch s = fetchCommand s := by
  unfold hostMayIssue at h
  unfold fetch
  cases hf : s.frames with
  | nil => rfl
  | cons f rest => simp only [hf] at h; simp [h]

/-- A frame runs, or the host may issue a command. -/
theorem runningAt_or_mayIssue (s : State) :
    (∃ pc, runningAt s = some pc) ∨ hostMayIssue s = true ∧ runningAt s = none := by
  unfold runningAt hostMayIssue
  cases s.frames with
  | nil => exact .inr ⟨rfl, rfl⟩
  | cons f rest => cases hu : f.upcall <;> simp [hu]

/-! ## Runs -/

theorem run_zero (s : State) : run 0 s = .next s := rfl

theorem run_succ_of_next {k : Nat} {s t : State} (h : step s = .next t) : run (k + 1) s = run k t := by
  have h' : Sys2Proof.core.step s = .next t := h
  have e := Host.Core.run.eq_2 Sys2Proof.core s k
  rw [h'] at e; exact e

theorem run_succ_of_fault {k : Nat} {s : State} {r : Fault} (h : step s = .fault r) : run (k + 1) s = .fault r := by
  have h' : Sys2Proof.core.step s = .fault r := h
  have e := Host.Core.run.eq_2 Sys2Proof.core s k
  rw [h'] at e; exact e

theorem run_succ_of_refused {k : Nat} {s : State} {r : Refusal} (h : step s = .refused r) : run (k + 1) s = .refused r := by
  have h' : Sys2Proof.core.step s = .refused r := h
  have e := Host.Core.run.eq_2 Sys2Proof.core s k
  rw [h'] at e; exact e

/-- A run of `j + k` steps is a run of `j`, then of `k`. -/
theorem run_add (j k : Nat) (s t : State) (h : run j s = .next t) : run (j + k) s = run k t := by
  induction j generalizing s with
  | zero => rw [run_zero] at h; cases h; rw [Nat.zero_add]
  | succ j ih =>
    rw [show j + 1 + k = (j + k) + 1 by omega]
    cases hstep : step s with
    | next u => rw [run_succ_of_next hstep] at h ⊢; exact ih u h
    | fault f => rw [run_succ_of_fault hstep] at h; cases h
    | refused f => rw [run_succ_of_refused hstep] at h; cases h

/-- A `go` event runs the top frame's micro-step. -/
theorem run_go {k : Nat} {s t : State} {f : Frame} {fs : List Frame} {rest : List Event}
    (hs : s.sched = .go :: rest) (hf : s.fault = none) (hfr : s.frames = f :: fs) (hu : f.upcall = none)
    (h : execFetch (fetchStep f.pc (popEvent rest s)) = .next t) : run (k + 1) s = run k t := by
  apply run_succ_of_next
  rw [step_go hs hf, fetch_running (s := popEvent rest s) hfr hu, h]

/-- A chip event moves the chip. -/
theorem run_chip {k : Nat} {s : State} {m : ChipMove} {rest : List Event}
    (hs : s.sched = .chip m :: rest) (hf : s.fault = none) : run (k + 1) s = run k (chipMove m (popEvent rest s)) := by
  apply run_succ_of_next
  rw [step_event hf hs]; rfl

/-- With no event waiting, the running frame's micro-step is the step. -/
theorem step_at {s : State} {pc : Pc} (hu : undisturbed s) (h : runningAt s = some pc) :
    step s = execFetch (fetchStep pc s) := by
  rw [step_undisturbed hu, fetch_runningAt h]

/-- One step of a run at a known label. -/
theorem run_at {k : Nat} {s t : State} {pc : Pc} (hu : undisturbed s) (h : runningAt s = some pc)
    (ht : execFetch (fetchStep pc s) = .next t) : run (k + 1) s = run k t :=
  run_succ_of_next (by rw [step_at hu h, ht])

/-- Moving the label of a running frame leaves it running. -/
theorem runningAt_goto {s : State} {pc pc' : Pc} (h : runningAt s = some pc) : runningAt (goto pc' s) = some pc' := by
  obtain ⟨f, rest, h1, h2, h3⟩ := runningAt_eq_some.mp h
  exact runningAt_eq_some.mpr ⟨{ f with pc := pc' }, rest, by simp [goto, h1], h2, rfl⟩

end Sys2Proof.Machine
end

