-- ==== Sys2Proof/Laws/PerInstr.lean ====
section
/-! SUPPORT. The family EncodedSize: what the encoder writes for an instruction has the size the spec gives it (R101, R108,
R112), and fits its carrier when the instruction is well-formed (R100, R246). -/

namespace Sys2Proof.Laws.EncodedSize

/-- The size of a record array of an application frame (R112, R113). -/
theorem addr_size (rs : List Half) : (addrBytes rs).length = rs.length * addrRec := by
  induction rs with
  | nil => rfl
  | cons r rs ih => simp [addrBytes, bytes16, addrRec] at *; omega

theorem pair_size (rs : List PairRec) : (pairBytes rs).length = rs.length * pairRec := by
  induction rs with
  | nil => rfl
  | cons r rs ih => simp [pairBytes, bytes16, bytes32, pairRec] at *; omega

/-- The size of an instruction's bytes: the length column of R101, the two bytes of a frame-control field, or header and
records. -/
def specSize : Instr → Nat
  | .linkInit _ _ => 5
  | .linkSetDst _ | .appSendReadCmd _ _ | .appSendWriteCmd _ _ | .appRegisterHandler _ _ | .txbufWrite _ _ => 3
  | .radioPacketSend _ | .linkPacketSend _ | .appSetReadAnsCb _ | .appSetWriteAnsCb _ | .appMaxCount _
  | .appSendReadAns _ | .appSendWriteAns _ | .txbufRead _ | .rxbufRead _ => 2
  | .radioInit | .radioGetTxPacket | .radioIsPacketAvailable | .radioGetRxPacket | .radioDismissRxPacket | .linkGetSrc
  | .linkGetTxPacket | .linkIsPacketAvailable | .linkGetRxPacket | .linkDismissRxPacket | .appInit | .appGetReadBuf
  | .appGetWriteBuf | .appUpdate | .upcallReturn => 1
  | .readCmd _ rs | .writeAns _ rs => appHdr + rs.length * addrRec
  | .readAns _ rs | .writeCmd _ rs => appHdr + rs.length * pairRec
  | .listCmd _ bs | .listAns _ bs | .findCmd _ bs | .findAns _ bs => appHdr + bs.length
  | .linkFcTx _ | .linkFcFilter _ _ _ _ => 2

/-- The encoded size is the spec's, and a well-formed instruction fits in a link payload. -/
def Statement (i : Instr) : Prop := (encode i).length = specSize i ∧ (i.wf = true → specSize i ≤ linkMtu)

theorem sized_of_small {i : Instr} (h : (encode i).length = specSize i) (hs : specSize i ≤ linkMtu) : Statement i :=
  ⟨h, fun _ => hs⟩

theorem sized_of_addr {cmd ep : Byte} {rs : List Half} {i : Instr} (he : encode i = cmd :: ep :: addrBytes rs)
    (hs : specSize i = appHdr + rs.length * addrRec) (hw : i.wf = sizeOk rs.length addrRec) : Statement i := by
  refine ⟨by rw [he, hs]; simp [addr_size, appHdr]; omega, fun h => ?_⟩
  have hc : 1 ≤ rs.length ∧ rs.length * 2 ≤ 114 := of_decide_eq_true (hw.symm.trans h)
  rw [hs]
  change 2 + rs.length * 2 ≤ 116
  omega

theorem sized_of_pair {cmd ep : Byte} {rs : List PairRec} {i : Instr} (he : encode i = cmd :: ep :: pairBytes rs)
    (hs : specSize i = appHdr + rs.length * pairRec) (hw : i.wf = sizeOk rs.length pairRec) : Statement i := by
  refine ⟨by rw [he, hs]; simp [pair_size, appHdr]; omega, fun h => ?_⟩
  have hc : 1 ≤ rs.length ∧ rs.length * 6 ≤ 114 := of_decide_eq_true (hw.symm.trans h)
  rw [hs]
  change 2 + rs.length * 6 ≤ 116
  omega

theorem sized_of_bytes {cmd ep : Byte} {bs : List Byte} {i : Instr} (he : encode i = cmd :: ep :: bs)
    (hs : specSize i = appHdr + bs.length) (hw : i.wf = sizeOk bs.length 1) : Statement i := by
  refine ⟨by rw [he, hs]; simp [appHdr]; omega, fun h => ?_⟩
  have hc : 1 ≤ bs.length ∧ bs.length * 1 ≤ 114 := of_decide_eq_true (hw.symm.trans h)
  rw [hs]
  change 2 + bs.length ≤ 116
  omega

theorem radioInit : Statement .radioInit :=
  sized_of_small rfl (Nat.le_of_ble_eq_true rfl)

theorem radioGetTxPacket : Statement .radioGetTxPacket :=
  sized_of_small rfl (Nat.le_of_ble_eq_true rfl)

theorem radioPacketSend (n : Byte) : Statement (.radioPacketSend n) :=
  sized_of_small rfl (Nat.le_of_ble_eq_true rfl)

theorem radioIsPacketAvailable : Statement .radioIsPacketAvailable :=
  sized_of_small rfl (Nat.le_of_ble_eq_true rfl)

theorem radioGetRxPacket : Statement .radioGetRxPacket :=
  sized_of_small rfl (Nat.le_of_ble_eq_true rfl)

theorem radioDismissRxPacket : Statement .radioDismissRxPacket :=
  sized_of_small rfl (Nat.le_of_ble_eq_true rfl)

theorem linkInit (pan addr : Half) : Statement (.linkInit pan addr) :=
  sized_of_small rfl (Nat.le_of_ble_eq_true rfl)

theorem linkSetDst (addr : Half) : Statement (.linkSetDst addr) :=
  sized_of_small rfl (Nat.le_of_ble_eq_true rfl)

theorem linkGetSrc : Statement .linkGetSrc :=
  sized_of_small rfl (Nat.le_of_ble_eq_true rfl)

theorem linkGetTxPacket : Statement .linkGetTxPacket :=
  sized_of_small rfl (Nat.le_of_ble_eq_true rfl)

theorem linkPacketSend (n : Byte) : Statement (.linkPacketSend n) :=
  sized_of_small rfl (Nat.le_of_ble_eq_true rfl)

theorem linkIsPacketAvailable : Statement .linkIsPacketAvailable :=
  sized_of_small rfl (Nat.le_of_ble_eq_true rfl)

theorem linkGetRxPacket : Statement .linkGetRxPacket :=
  sized_of_small rfl (Nat.le_of_ble_eq_true rfl)

theorem linkDismissRxPacket : Statement .linkDismissRxPacket :=
  sized_of_small rfl (Nat.le_of_ble_eq_true rfl)

theorem appInit : Statement .appInit :=
  sized_of_small rfl (Nat.le_of_ble_eq_true rfl)

theorem appSetReadAnsCb (present : Byte) : Statement (.appSetReadAnsCb present) :=
  sized_of_small rfl (Nat.le_of_ble_eq_true rfl)

theorem appSetWriteAnsCb (present : Byte) : Statement (.appSetWriteAnsCb present) :=
  sized_of_small rfl (Nat.le_of_ble_eq_true rfl)

theorem appGetReadBuf : Statement .appGetReadBuf :=
  sized_of_small rfl (Nat.le_of_ble_eq_true rfl)

theorem appGetWriteBuf : Statement .appGetWriteBuf :=
  sized_of_small rfl (Nat.le_of_ble_eq_true rfl)

theorem appMaxCount (cmd : Byte) : Statement (.appMaxCount cmd) :=
  sized_of_small rfl (Nat.le_of_ble_eq_true rfl)

theorem appSendReadCmd (ep count : Byte) : Statement (.appSendReadCmd ep count) :=
  sized_of_small rfl (Nat.le_of_ble_eq_true rfl)

theorem appSendWriteCmd (ep count : Byte) : Statement (.appSendWriteCmd ep count) :=
  sized_of_small rfl (Nat.le_of_ble_eq_true rfl)

theorem appRegisterHandler (ep flags : Byte) : Statement (.appRegisterHandler ep flags) :=
  sized_of_small rfl (Nat.le_of_ble_eq_true rfl)

theorem appSendReadAns (count : Byte) : Statement (.appSendReadAns count) :=
  sized_of_small rfl (Nat.le_of_ble_eq_true rfl)

theorem appSendWriteAns (count : Byte) : Statement (.appSendWriteAns count) :=
  sized_of_small rfl (Nat.le_of_ble_eq_true rfl)

theorem appUpdate : Statement .appUpdate :=
  sized_of_small rfl (Nat.le_of_ble_eq_true rfl)

theorem txbufWrite (index value : Byte) : Statement (.txbufWrite index value) :=
  sized_of_small rfl (Nat.le_of_ble_eq_true rfl)

theorem txbufRead (index : Byte) : Statement (.txbufRead index) :=
  sized_of_small rfl (Nat.le_of_ble_eq_true rfl)

theorem rxbufRead (index : Byte) : Statement (.rxbufRead index) :=
  sized_of_small rfl (Nat.le_of_ble_eq_true rfl)

theorem upcallReturn : Statement .upcallReturn :=
  sized_of_small rfl (Nat.le_of_ble_eq_true rfl)

theorem readCmd (ep : Byte) (records : List Half) : Statement (.readCmd ep records) :=
  sized_of_addr rfl rfl rfl

theorem readAns (ep : Byte) (records : List PairRec) : Statement (.readAns ep records) :=
  sized_of_pair rfl rfl rfl

theorem writeCmd (ep : Byte) (records : List PairRec) : Statement (.writeCmd ep records) :=
  sized_of_pair rfl rfl rfl

theorem writeAns (ep : Byte) (records : List Half) : Statement (.writeAns ep records) :=
  sized_of_addr rfl rfl rfl

theorem listCmd (ep : Byte) (payload : List Byte) : Statement (.listCmd ep payload) :=
  sized_of_bytes rfl rfl rfl

theorem listAns (ep : Byte) (payload : List Byte) : Statement (.listAns ep payload) :=
  sized_of_bytes rfl rfl rfl

theorem findCmd (ep : Byte) (payload : List Byte) : Statement (.findCmd ep payload) :=
  sized_of_bytes rfl rfl rfl

theorem findAns (ep : Byte) (payload : List Byte) : Statement (.findAns ep payload) :=
  sized_of_bytes rfl rfl rfl

theorem linkFcTx (version : BitVec 2) : Statement (.linkFcTx version) :=
  sized_of_small rfl (Nat.le_of_ble_eq_true rfl)

theorem linkFcFilter (pending ackReq : Bool) (reserved : BitVec 3) (version : BitVec 2) : Statement (.linkFcFilter pending ackReq reserved version) :=
  sized_of_small rfl (Nat.le_of_ble_eq_true rfl)

end Sys2Proof.Laws.EncodedSize
end

