-- ==== Sys2Proof/Laws/Step.lean ====
section
/-! SUPPORT. Everything a step can do, said once: what a host command, a micro-step and the block's own step answer, case by
case. An invariant is then one short case analysis. -/

namespace Sys2Proof.Machine

/-! ## A received frame (R261 U2) -/

/-- Step U2 drops the frame, accepts it only at LINK, or runs its application instruction. -/
theorem fetchFrame_cases {s t : State} (h : execFetch (fetchFrame s) = .next t) :
    t = goto .d1 s ∨
      (rxFilter s).isSome = true ∧
        (t = acceptFrame (goto .d1 s) ∨
          ∃ i, decodeApp (s.rxBuf.slice rxLinkOff (rxPayloadSize s)) = some i ∧ exec i (acceptFrame s) = .next t) := by
  unfold fetchFrame at h
  split at h
  · exact .inl (by cases h; rfl)
  · rename_i acc ha
    refine .inr ⟨by simp [ha], ?_⟩
    split at h
    · rename_i i hi; exact .inr ⟨i, hi, h⟩
    · left
      change exec acc _ = _ at h
      simp only [rxFilter] at ha
      split at ha
      · cases ha
      · simp only [decodeFcRx] at ha
        split at ha
        · cases ha; cases h; rfl
        · cases ha

/-- An application instruction only moves the poll on: to its dismiss, to the master's upcall or to the slave walk. -/
theorem exec_app {i : Instr} {s t : State} (hi : i.source = .app) (h : exec i s = .next t) :
    ∃ pc, t = goto pc s ∧ (pc = .d1 ∨ (∃ u, pc = .u4 u) ∨ ∃ k ep n, pc = .sd1 k 0 ep n) := by
  cases i <;> simp only [Instr.source, reduceCtorEq] at hi <;>
    simp only [exec, execReadCmd, execReadAns, execWriteCmd, execWriteAns, execListCmd, execListAns, execFindCmd,
      execFindAns, routeSlave, routeMaster, dropFrame] at h <;>
    cases h
  all_goals first
    | exact ⟨_, rfl, .inl rfl⟩
    | exact ⟨_, rfl, .inr (.inr ⟨_, _, _, rfl⟩)⟩
    | refine ⟨_, rfl, ?_⟩
  · cases s.cbReadAns
    · exact .inl rfl
    · exact .inr (.inl ⟨_, rfl⟩)
  · cases s.cbWriteAns
    · exact .inl rfl
    · exact .inr (.inl ⟨_, rfl⟩)

/-! ## Host commands -/

/-- Everything a host command can answer. -/
inductive CommandEffect (s : State) : Instr → State → Prop where
  | faulted (i : Instr) (r : Fault) (h : r ≠ .chipLength) : CommandEffect s i { s with fault := some r }
  | answered (i : Instr) (r : Result) : CommandEffect s i { s with result := some r }
  | radioInit : CommandEffect s .radioInit
      (goto .i2 { push .radioInit s with irqEn := false, rxWaiting := false, rxQueued := false })
  | radioSend (n : Byte) (h : n.toNat ≤ radioMtu) (hr : s.radioReady = true) :
      CommandEffect s (.radioPacketSend n) (goto (.ss1 (.transmit n.toNat)) (push (.radioPacketSend n) s))
  | dismiss (i : Instr) (h : i = .radioDismissRxPacket ∨ i = .linkDismissRxPacket) :
      CommandEffect s i (goto .d2 { push i s with rxWaiting := false })
  | linkInit (pan addr : Half) :
      CommandEffect s (.linkInit pan addr)
        { s with panId := pan, localAddr := addr, linkReady := true, result := some .unit }
  | linkSetDst (addr : Half) : CommandEffect s (.linkSetDst addr) { s with dstAddr := addr, result := some .unit }
  | linkSend (n : Byte) (h : n.toNat ≤ linkMtu) :
      CommandEffect s (.linkPacketSend n) (goto (.l2 n.toNat) (push (.linkPacketSend n) s))
  | linkGet (r : Result) (h : (rxFilter s).isSome = true) (hr : isReady s .link = true) (hw : s.rxWaiting = true) :
      CommandEffect s .linkGetRxPacket { acceptFrame s with result := some r }
  | appInit : CommandEffect s .appInit
      { s with cbReadAns := false, cbWriteAns := false, handlers := [], appReady := true, result := some .unit }
  | setReadAns (p : Byte) : CommandEffect s (.appSetReadAnsCb p) { s with cbReadAns := p == 1, result := some .unit }
  | setWriteAns (p : Byte) : CommandEffect s (.appSetWriteAnsCb p) { s with cbWriteAns := p == 1, result := some .unit }
  | appSend (i : Instr) (cmd : Byte) (ep : Option Byte) (n : Nat) (h : n ≤ maxCount cmd)
      (hc : cmd ∈ [codeReadCmd, codeReadAns, codeWriteCmd, codeWriteAns]) :
      CommandEffect s i (goto (.a2 cmd ep n) (push i s))
  | register (ep flags : Byte) (h : s.handlers.length ≠ nHandlers s.cfg) :
      CommandEffect s (.appRegisterHandler ep flags)
        { s with handlers := s.handlers ++ [handlerOf ep flags], result := some (.handler (some s.handlers.length)) }
  | update (h : s.rxWaiting = true) : CommandEffect s .appUpdate (goto .u2 (push .appUpdate s))
  | txWrite (i v : Byte) (h : i.toNat < txSize) :
      CommandEffect s (.txbufWrite i v) { s with txBuf := s.txBuf.write i.toNat v, result := some .unit }
  | upcallReturn (f : Frame) (rest : List Frame) (hf : s.frames = f :: rest) (hu : f.upcall.isSome = true) :
      CommandEffect s .upcallReturn { resume s with result := some .unit }

/-- Every operation's ready check includes RADIO's (R37). -/
theorem isReady_radio {s : State} {b : SubBlock} (h : isReady s b = true) : s.radioReady = true := by
  cases b <;> simp_all [isReady]

/-- A host command answers one of its effects. -/
theorem exec_command {i : Instr} {s t : State} (hi : i.source = .host) (h : exec i s = .next t) :
    CommandEffect s i t := by
  have nr : ∀ {b : SubBlock} {first : State → Outcome}, issue b i first s = .next t →
      (isReady s b = true → first (push i s) = .next t → CommandEffect s i t) → CommandEffect s i t := by
    intro b first h' k
    rcases issue_cases h' with ⟨h1, h2⟩ | ⟨_, h2⟩
    · exact k h1 h2
    · cases h2; exact .faulted _ _ (by simp)
  cases i <;> (try (simp [Instr.source] at hi; done)) <;>
    simp only [exec, execRadioGetTxPacket, execRadioPacketSend, execRadioIsPacketAvailable, execRadioGetRxPacket,
      execRadioDismissRxPacket, execLinkSetDst, execLinkGetSrc, execLinkGetTxPacket, execLinkPacketSend,
      execLinkIsPacketAvailable, execLinkGetRxPacket, execLinkDismissRxPacket, execAppSetReadAnsCb, execAppSetWriteAnsCb,
      execAppGetReadBuf, execAppGetWriteBuf, execAppMaxCount, execAppSendReadCmd, execAppSendWriteCmd,
      execAppRegisterHandler, execAppSendReadAns, execAppSendWriteAns, execAppUpdate, execTxbufWrite, execTxbufRead,
      execRxbufRead, execUpcallReturn] at h
  case radioInit => cases h; exact .radioInit
  case radioGetTxPacket | radioIsPacketAvailable | radioGetRxPacket | linkGetSrc | linkGetTxPacket |
      linkIsPacketAvailable | appGetReadBuf | appGetWriteBuf | appMaxCount =>
    exact nr h fun _ h => by cases h; exact .answered _ _
  case radioPacketSend n =>
    refine nr h fun hr h => ?_
    unfold stepT1 at h; split at h <;> cases h
    · exact .answered _ _
    · exact .radioSend n (by omega) (isReady_radio hr)
  case radioDismissRxPacket => exact nr h fun _ h => by cases h; exact .dismiss _ (.inl rfl)
  case linkInit => cases h; exact .linkInit _ _
  case linkSetDst => exact nr h fun _ h => by cases h; exact .linkSetDst _
  case linkPacketSend n =>
    refine nr h fun _ h => ?_
    unfold stepL1 at h; split at h <;> cases h
    · exact .answered _ _
    · exact .linkSend n (by omega)
  case linkGetRxPacket =>
    refine nr h fun hr h => ?_
    unfold stepLinkGet at h
    cases hw : s.rxWaiting
    · rw [push_rxWaiting, hw] at h; cases h; exact .answered _ _
    · rw [push_rxWaiting, hw, cond_true] at h
      split at h <;> rename_i hf
      · cases h; exact .answered _ _
      · cases h; exact .linkGet _ (by have : rxFilter s = some _ := hf; simp [this]) hr hw
  case linkDismissRxPacket => exact nr h fun _ h => by cases h; exact .dismiss _ (.inr rfl)
  case appInit => cases h; exact .appInit
  case appSetReadAnsCb p =>
    split at h
    · exact nr h fun _ h => by cases h; exact .setReadAns _
    · cases h; exact .faulted _ _ (by simp)
  case appSetWriteAnsCb p =>
    split at h
    · exact nr h fun _ h => by cases h; exact .setWriteAns _
    · cases h; exact .faulted _ _ (by simp)
  case appSendReadCmd | appSendWriteCmd | appSendReadAns | appSendWriteAns =>
    refine nr h fun _ h => ?_
    unfold stepA1 at h; split at h <;> cases h
    · exact .answered _ _
    · exact .appSend _ _ _ _ (by omega) (by simp)
  case appRegisterHandler ep flags =>
    split at h
    · refine nr h fun _ h => ?_
      unfold stepRegister at h; split at h <;> cases h
      · exact .answered _ _
      · exact .register _ _ ‹_›
    · cases h; exact .faulted _ _ (by simp)
  case appUpdate =>
    refine nr h fun _ h => ?_
    unfold stepU1 at h
    cases hw : s.rxWaiting <;> rw [push_rxWaiting, hw] at h <;> cases h
    · exact .answered _ _
    · exact .update hw
  case txbufWrite a v =>
    split at h <;> cases h
    · exact .faulted _ _ (by simp)
    · exact .txWrite a v (by omega)
  case txbufRead a | rxbufRead a =>
    split at h <;> cases h
    · exact .faulted _ _ (by simp)
    · exact .answered _ _
  case upcallReturn =>
    split at h <;> rename_i hf
    · cases h; exact .faulted _ _ (by simp)
    · split at h <;> cases h
      · exact .upcallReturn _ _ hf ‹_›
      · exact .faulted _ _ (by simp)

/-! ## Micro-steps -/

/-- Everything a micro-step can do. -/
inductive MicroEffect (s : State) : Pc → State → Prop where
  | start : MicroEffect s .start s
  | i2 : MicroEffect s .i2 (goto (.ss1 .init) (chipPulseReset s))
  | i4 : MicroEffect s .i4 (finish .unit { s with radioReady := true, irqEn := true })
  | ss1Done (use : SetState) : MicroEffect s (.ss1 use) (goto (setStateNext use) s)
  | ss1Spin (use : SetState) : MicroEffect s (.ss1 use) (goto (.ss1 use) s)
  | ss1Command (use : SetState) (c : ChipCmd) : MicroEffect s (.ss1 use) (goto (.ss2 use c) s)
  | ss2 (use : SetState) (c : ChipCmd) : MicroEffect s (.ss2 use c) (goto (.ss1 use) (chipCommand c s))
  | t1Refuse (n : Nat) : MicroEffect s (.t1 n) (finish (.bool false) s)
  | t1 (n : Nat) (h : n ≤ radioMtu) : MicroEffect s (.t1 n) (goto (.ss1 (.transmit n)) s)
  | t3 (n : Nat) : MicroEffect s (.t3 n) (goto (.t4 n) { s with irqEn := false })
  | t4 (n : Nat) : MicroEffect s (.t4 n) (goto .t5 (chipWriteFrame n s))
  | t5 : MicroEffect s .t5 (goto .t6 (chipPulseTrigger s))
  | t6 : MicroEffect s .t6 (goto (.t7 (nowMs s.cfg s.clock)) s)
  | t7Line (t0 : Nat) : MicroEffect s (.t7 t0) (goto (.t8 t0) s)
  | t7 (t0 : Nat) : MicroEffect s (.t7 t0) (goto (.t9 t0) s)
  | t8Done (t0 : Nat) : MicroEffect s (.t8 t0) (goto (.t10 true) (clearIrqStatus s))
  | t8 (t0 : Nat) : MicroEffect s (.t8 t0) (goto (.t9 t0) (clearIrqStatus s))
  | t9Over (t0 : Nat) : MicroEffect s (.t9 t0) (goto (.t10 false) s)
  | t9 (t0 : Nat) : MicroEffect s (.t9 t0) (goto (.t7 t0) s)
  | t10 (done ok : Bool) : MicroEffect s (.t10 done) (goto (.ss1 (.restore ok)) s)
  | t12 (ok : Bool) : MicroEffect s (.t12 ok) (finish (.bool ok) (drawTx { s with irqEn := true }))
  | d1 : MicroEffect s .d1 (goto .d2 { s with rxWaiting := false })
  | d2 (h : s.rxQueued = false) : MicroEffect s .d2 (finish .unit s)
  | d2Queued (h : s.rxQueued = true) : MicroEffect s .d2 (goto .d3 s)
  | d3 : (chipFrame s).1.toNat ≤ radioMtu → MicroEffect s .d3 (finish .unit
      { loadRx (chipFrame s).1 (chipFrame s).2 (chipReleaseFrame s) with
        rxWaiting := true, rxQueued := false, irqEn := true })
  | d3Long : radioMtu < (chipFrame s).1.toNat → MicroEffect s .d3 { chipReleaseFrame s with fault := some .chipLength }
  | l1Refuse (n : Nat) : MicroEffect s (.l1 n) (finish (.bool false) s)
  | l1 (n : Nat) (h : n ≤ linkMtu) : MicroEffect s (.l1 n) (goto (.l2 n) s)
  | l2 (n : Nat) : MicroEffect s (.l2 n) (putFrameControl (fcTx s.cfg.fcVersion) (beforeFcTx n s))
  | a2 (cmd : Byte) (ep : Option Byte) (count : Nat) : MicroEffect s (.a2 cmd ep count)
      (goto (.l1 (appHdr + count * recSize cmd)) (putAppHeader cmd (ep.getD s.dispatchEp) s))
  | u2Drop : MicroEffect s .u2 (goto .d1 s)
  | u2Accept (pc : Pc) (h : (rxFilter s).isSome = true)
      (hp : pc = .d1 ∨ (∃ u, pc = .u4 u) ∨ ∃ k ep n, pc = .sd1 k 0 ep n) :
      MicroEffect s .u2 (goto pc (acceptFrame s))
  | u4 (u : Upcall) (h : outstanding s ≠ maxUpcallDepth s.cfg) : MicroEffect s (.u4 u) (suspend u .d1 s)
  | u4Full (u : Upcall) : MicroEffect s (.u4 u) { s with fault := some .upcallDepth }
  | sd1End (kind : SlaveKind) (i : Nat) (ep : Byte) (count : Nat) : MicroEffect s (.sd1 kind i ep count) (goto .d1 s)
  | sd1Skip (kind : SlaveKind) (i : Nat) (ep : Byte) (count : Nat) :
      MicroEffect s (.sd1 kind i ep count) (goto (.sd2 kind i ep count) s)
  | sd1Call (kind : SlaveKind) (i : Nat) (ep : Byte) (count : Nat) (h : outstanding s ≠ maxUpcallDepth s.cfg) :
      MicroEffect s (.sd1 kind i ep count)
        (suspend (upcallRecord (.slave kind) (some i) ep count) (.sd2 kind i ep count) { s with dispatchEp := ep })
  | sd1Full (kind : SlaveKind) (i : Nat) (ep : Byte) (count : Nat) :
      MicroEffect s (.sd1 kind i ep count) { s with fault := some .upcallDepth }
  | sd2 (kind : SlaveKind) (i : Nat) (ep : Byte) (count : Nat) :
      MicroEffect s (.sd2 kind i ep count) (goto (.sd1 kind (i + 1) ep count) s)

/-- A micro-step answers one of its effects. -/
theorem micro_step {pc : Pc} {s t : State} (h : execFetch (fetchStep pc s) = .next t) : MicroEffect s pc t := by
  cases pc <;> simp only [fetchStep] at h
  case start => cases h; exact .start
  case i2 => cases h; exact .i2
  case i4 => cases h; exact .i4
  case ss1 use =>
    simp only [execFetch, stepSS1] at h
    split at h
    · cases h; exact .ss1Done use
    · split at h <;> cases h
      · exact .ss1Spin use
      all_goals exact .ss1Command use _
  case ss2 use c => cases h; exact .ss2 use c
  case t1 n =>
    simp only [execFetch, stepT1] at h
    split at h <;> cases h
    · exact .t1Refuse n
    · exact .t1 n (by omega)
  case t3 n => cases h; exact .t3 n
  case t4 n => cases h; exact .t4 n
  case t5 => cases h; exact .t5
  case t6 => cases h; exact .t6
  case t7 t0 =>
    simp only [execFetch, stepT7] at h
    cases hl : s.chip.regs.irqLine <;> rw [hl] at h <;> cases h
    · exact .t7 t0
    · exact .t7Line t0
  case t8 t0 =>
    simp only [execFetch, stepT8] at h
    cases hl : irqTxDone s.cfg s.chip.regs.irqStatus <;> rw [hl] at h <;> cases h
    · exact .t8 t0
    · exact .t8Done t0
  case t9 t0 =>
    simp only [execFetch, stepT9] at h
    split at h <;> cases h
    · exact .t9Over t0
    · exact .t9 t0
  case t10 d => cases h; exact .t10 d _
  case t12 ok => cases h; exact .t12 ok
  case d1 => cases h; exact .d1
  case d2 =>
    simp only [execFetch, stepD2] at h
    cases hq : s.rxQueued <;> rw [hq] at h <;> cases h
    · exact .d2 hq
    · exact .d2Queued hq
  case d3 =>
    simp only [execFetch, stepD3] at h
    rcases pullFrame_cases h with ⟨rfl, h'⟩ | ⟨rfl, h'⟩
    · exact .d3Long h'
    · exact .d3 h'
  case l1 n =>
    simp only [execFetch, stepL1] at h
    split at h <;> cases h
    · exact .l1Refuse n
    · exact .l1 n (by omega)
  case l2 n => cases h; exact .l2 n
  case a2 => cases h; exact .a2 ..
  case u2 =>
    rcases fetchFrame_cases h with rfl | ⟨hs, rfl | ⟨i, hi, h⟩⟩
    · exact .u2Drop
    · exact .u2Accept .d1 hs (.inl rfl)
    · obtain ⟨pc, rfl, hp⟩ := exec_app (decodeApp_source hi) h
      exact .u2Accept pc hs hp
  case u4 u =>
    simp only [execFetch, stepU4] at h
    rcases upcall_cases h with rfl | ⟨rfl, h'⟩
    · exact .u4Full u
    · exact .u4 u h'
  case sd1 kind i ep count =>
    simp only [execFetch, stepSD1] at h
    split at h
    · cases h; exact .sd1End ..
    · split at h
      · rcases upcall_cases h with rfl | ⟨rfl, h'⟩
        · exact .sd1Full ..
        · exact .sd1Call _ _ _ _ h'
      · cases h; exact .sd1Skip ..
  case sd2 => cases h; exact .sd2 ..

/-! ## The block's own step -/

/-- The block's own step is the running frame's micro-step, or what the host port gives. -/
theorem ownStep_cases {s t : State} (h : ownStep s t) :
    (∃ pc, runningAt s = some pc ∧ execFetch (fetchStep pc s) = .next t) ∨
    (hostMayIssue s = true ∧ runningAt s = none ∧
      (t = s ∨ (∃ rest, t = { s with port := rest, fault := some .illegalOpcode }) ∨
       (∃ rest, t = { s with port := rest, fault := some .badOperand }) ∨
       ∃ i rest, decodeHost s.port = .ok i rest ∧ exec i { s with port := rest, result := none } = .next t)) := by
  have h' : execFetch (fetch s) = .next t := by
    rcases h with h | ⟨i, v, h1, h2⟩
    · rw [h]; rfl
    · rw [h1]; exact h2
  rcases runningAt_or_mayIssue s with ⟨pc, hr⟩ | ⟨hm, hr⟩
  · exact .inl ⟨pc, hr, by rw [← fetch_runningAt hr]; exact h'⟩
  · refine .inr ⟨hm, hr, ?_⟩
    rw [fetch_mayIssue hm] at h'
    unfold fetchCommand at h'
    split at h' <;> rename_i hd
    · exact .inr (.inr (.inr ⟨_, _, hd, h'⟩))
    · exact .inr (.inl ⟨_, by cases h'; rfl⟩)
    · exact .inr (.inr (.inl ⟨_, by cases h'; rfl⟩))
    · exact .inl (by cases h'; rfl)

/-- The block's own step, down to its effects. -/
theorem ownStep_effects {s t : State} (h : ownStep s t) :
   (∃ pc, runningAt s = some pc ∧ MicroEffect s pc t) ∨
    (hostMayIssue s = true ∧ runningAt s = none ∧
      (t = s ∨ (∃ rest r, t = { s with port := rest, fault := some r } ∧ (r = .illegalOpcode ∨ r = .badOperand)) ∨
       ∃ i rest, decodeHost s.port = .ok i rest ∧ CommandEffect { s with port := rest, result := none } i t)) := by
  rcases ownStep_cases h with ⟨pc, hr, h⟩ | ⟨hm, hr, rfl | ⟨rest, rfl⟩ | ⟨rest, rfl⟩ | ⟨i, rest, hd, h⟩⟩
  · exact .inl ⟨pc, hr, micro_step h⟩
  · exact .inr ⟨hm, hr, .inl rfl⟩
  · exact .inr ⟨hm, hr, .inr (.inl ⟨rest, _, rfl, .inl rfl⟩)⟩
  · exact .inr ⟨hm, hr, .inr (.inl ⟨rest, _, rfl, .inr rfl⟩)⟩
  · exact .inr ⟨hm, hr, .inr (.inr ⟨i, rest, hd, exec_command (decodeHost_source hd) h⟩)⟩

/-! ## What the invariants read -/

theorem stackOk_congr {s t : State} (hf : t.frames = s.frames) (hc : t.cfg = s.cfg) : stackOk t ↔ stackOk s := by
  unfold stackOk outstanding; rw [hf, hc]

theorem maskOk_congr {s t : State} (hf : t.frames = s.frames) (hr : t.radioReady = s.radioReady) (hi : t.irqEn = s.irqEn) :
    maskOk t ↔ maskOk s := by
  unfold maskOk runsMasked runningAt; rw [hf, hr, hi]

end Sys2Proof.Machine
end

