-- ==== Sys2Proof/Tests/Slice0.lean ====
section
/-! SUPPORT. The model's own tests: well-formedness, decoding of words written out from the spec's encodings, one-step tests
with results from 95_test_vectors.md, and for every statement with hypotheses a state that meets them. -/

namespace Sys2Proof.Tests

open Sys2Proof Sys2Proof.Machine

/-! ## A small machine -/

/-- Parameters with distinct codes: status 1 BUSY, 2 IDLE, 3 LISTEN, 4 SEND, any other OTHER. -/
def benchCfg : Params where
  fcVersion := 0
  msWidth := 32
  handlersBeyondOne := 1
  upcallsBeyondOne := 1
  statusClasses := [(1, .busy), (2, .idle), (3, .listen), (4, .send)]
  cmdListen := 10
  cmdSend := 11
  cmdRecover := 12
  rxDone := [8, 12]
  txDone := [4, 12]
  tracSuccess := 1

def benchCodes : ChipCodes := ⟨3, 4, 4⟩

/-- Right after reset, with a chip at LISTEN. -/
def cold : State := State.newRun ⟨⟨3, 0, false, 0⟩, .empty, none, 0, 0⟩ 1000 benchCfg [] 0

/-- Initialised, as P1 of 95_test_vectors.md sets it up. -/
def bench : State :=
  { cold with
    irqEn := true, radioReady := true, linkReady := true, appReady := true, panId := 0x1234, localAddr := 0x0001,
    dstAddr := 0x0002, lastSrc := 0x7777 }

/-- A state with one operation running, at a label. -/
def at_ (op : Instr) (pc : Pc) (s : State) : State := { s with frames := [⟨op, pc, none⟩] }

/-- A frame waiting in RXBUF. -/
def holding (len : Byte) (bytes : List Byte) (s : State) : State :=
  { s with rxBuf := Buffer.ofFrame len bytes 0, rxWaiting := true }

/-- APP_UPDATE suspended in an upcall of the master. -/
def inUpcall (s : State) : State :=
  { s with frames := [⟨.appUpdate, .d1, some ⟨.readAnsCb, none, 3, 12, 1⟩⟩] }

/-- A state in which the chip shows these registers. -/
def chipShows (status irqStatus : Nat) (line : Bool) (s : State) : State := setRegs ⟨status, irqStatus, line, 0⟩ s

/-- A state with these coming events. -/
def coming (es : List Event) (s : State) : State := { s with sched := es }

/-- A state with these bytes on the host port. -/
def hostSays (bytes : List Byte) (s : State) : State := { s with port := bytes }

/-- The outcome is a next state with this property. -/
def gives (o : Outcome) (p : State → Bool) : Bool :=
  match o with
  | .next t => p t
  | _ => false

/-- The outcome is a next state with this result. -/
def answers (o : Outcome) (r : Result) : Bool := gives o fun t => t.result == some r

/-- The outcome is a next state with this fault. -/
def faults (o : Outcome) (f : Fault) : Bool := gives o fun t => t.fault == some f

/-- The link header of V4's first frame, and the frame of P1 as P2 receives it. -/
def fcData : List Byte := [0x61, 0x88, 0x05, 0x34, 0x12, 0x02, 0x00, 0x01, 0x00]
def writeCmdFrame : List Byte :=
  [0x61, 0x88, 0x00, 0x34, 0x12, 0x02, 0x00, 0x01, 0x00, 0x03, 0x03, 0x10, 0x00, 0x07, 0x00, 0x00, 0x00, 0x11, 0x00] ++
  [0x09, 0x00, 0x00, 0x00, 0xC0, 0xC1]

/-! ## Well-formedness: one ill-formed term for each check -/

theorem test_wf_present_checked :
    (Instr.appSetReadAnsCb 2).wf = false ∧ (Instr.appSetWriteAnsCb 2).wf = false ∧
    (Instr.appSetReadAnsCb 1).wf = true ∧ (Instr.appSetWriteAnsCb 0).wf = true := by decide

theorem test_wf_flags_checked :
    (Instr.appRegisterHandler 3 4).wf = false ∧ (Instr.appRegisterHandler 3 0x80).wf = false ∧
    (Instr.appRegisterHandler 3 3).wf = true := by decide

theorem test_wf_records_checked :
    (Instr.readCmd 3 []).wf = false ∧ (Instr.readCmd 3 (List.replicate 58 0)).wf = false ∧
    (Instr.readCmd 3 (List.replicate 57 0)).wf = true ∧
    (Instr.writeAns 3 []).wf = false ∧ (Instr.writeAns 3 (List.replicate 58 0)).wf = false ∧
    (Instr.readAns 3 []).wf = false ∧ (Instr.readAns 3 (List.replicate 20 ⟨0, 0⟩)).wf = false ∧
    (Instr.writeCmd 3 []).wf = false ∧ (Instr.writeCmd 3 (List.replicate 20 ⟨0, 0⟩)).wf = false ∧
    (Instr.writeCmd 3 (List.replicate 19 ⟨0, 0⟩)).wf = true := by decide

theorem test_wf_reserved_payload_checked :
    (Instr.listCmd 3 []).wf = false ∧ (Instr.listAns 3 []).wf = false ∧ (Instr.findCmd 3 []).wf = false ∧
    (Instr.findAns 3 []).wf = false ∧ (Instr.listCmd 3 (List.replicate 115 0)).wf = false ∧
    (Instr.findAns 3 (List.replicate 114 0)).wf = true := by decide

/-! ## Decoding: every constructor, from words written out from R101, R109 to R114 -/

theorem test_decode_radio :
    decodeHost [0x01] = .ok .radioInit [] ∧ decodeHost [0x02] = .ok .radioGetTxPacket [] ∧
    decodeHost [0x03, 0x80] = .ok (.radioPacketSend 128) [] ∧
    decodeHost [0x04] = .ok .radioIsPacketAvailable [] ∧ decodeHost [0x05] = .ok .radioGetRxPacket [] ∧
    decodeHost [0x06] = .ok .radioDismissRxPacket [] := by decide

theorem test_decode_link :
    decodeHost [0x10, 0x34, 0x12, 0x01, 0x00] = .ok (.linkInit 0x1234 0x0001) [] ∧
    decodeHost [0x11, 0x02, 0x00] = .ok (.linkSetDst 0x0002) [] ∧ decodeHost [0x12] = .ok .linkGetSrc [] ∧
    decodeHost [0x13] = .ok .linkGetTxPacket [] ∧ decodeHost [0x14, 0x05] = .ok (.linkPacketSend 5) [] ∧
    decodeHost [0x15] = .ok .linkIsPacketAvailable [] ∧ decodeHost [0x16] = .ok .linkGetRxPacket [] ∧
    decodeHost [0x17] = .ok .linkDismissRxPacket [] := by decide

theorem test_decode_app :
    decodeHost [0x20] = .ok .appInit [] ∧ decodeHost [0x21, 0x01] = .ok (.appSetReadAnsCb 1) [] ∧
    decodeHost [0x22, 0x00] = .ok (.appSetWriteAnsCb 0) [] ∧ decodeHost [0x23] = .ok .appGetReadBuf [] ∧
    decodeHost [0x24] = .ok .appGetWriteBuf [] ∧ decodeHost [0x25, 0xFF] = .ok (.appMaxCount 0xFF) [] ∧
    decodeHost [0x26, 0x03, 0x14] = .ok (.appSendReadCmd 3 20) [] ∧
    decodeHost [0x27, 0x03, 0x02] = .ok (.appSendWriteCmd 3 2) [] ∧
    decodeHost [0x28, 0x03, 0x02] = .ok (.appRegisterHandler 3 2) [] ∧
    decodeHost [0x29, 0x01] = .ok (.appSendReadAns 1) [] ∧ decodeHost [0x2A, 0x02] = .ok (.appSendWriteAns 2) [] ∧
    decodeHost [0x2B] = .ok .appUpdate [] := by decide

theorem test_decode_hostport :
    decodeHost [0x30, 0x7E, 0xAA] = .ok (.txbufWrite 126 0xAA) [] ∧ decodeHost [0x31, 0x0B] = .ok (.txbufRead 11) [] ∧
    decodeHost [0x32, 0x7F] = .ok (.rxbufRead 127) [] ∧ decodeHost [0x3F] = .ok .upcallReturn [] := by decide

/-- V1: opcodes outside the table, failed operand checks, and what follows a command. -/
theorem test_decode_host_rejects :
    decodeHost [0x07] = .illegalOpcode [] ∧ decodeHost [0x18] = .illegalOpcode [] ∧
    decodeHost [0x2C] = .illegalOpcode [] ∧ decodeHost [0x33] = .illegalOpcode [] ∧
    decodeHost [0x3E] = .illegalOpcode [] ∧ decodeHost [0x40] = .illegalOpcode [] ∧
    decodeHost [0xFF] = .illegalOpcode [] ∧ decodeHost [0x00, 0x04] = .illegalOpcode [0x04] ∧
    decodeHost [0x28, 0x03, 0x04] = .badOperand [] ∧ decodeHost [0x21, 0x02] = .badOperand [] ∧
    decodeHost [0x22, 0xFF, 0x04] = .badOperand [0x04] ∧ decodeHost [0x10, 0x34, 0x12] = .incomplete ∧
    decodeHost [0x04, 0x15] = .ok .radioIsPacketAvailable [0x15] := by decide

/-- W1, W6, V7, V8, R114 and R115: the frames of the eight codes. -/
theorem test_decode_app_frames :
    decodeApp [0x01, 0x03, 0x10, 0x00, 0x11, 0x00] = some (.readCmd 3 [0x0010, 0x0011]) ∧
    decodeApp [0x02, 0x09, 0x10, 0x00, 0xEF, 0xBE, 0xAD, 0xDE] = some (.readAns 9 [⟨0x0010, 0xDEADBEEF⟩]) ∧
    decodeApp ([0x03, 0x03, 0x10, 0x00, 0x07, 0x00, 0x00, 0x00] ++ [0x11, 0x00, 0x09, 0x00, 0x00, 0x00]) =
      some (.writeCmd 3 [⟨0x0010, 7⟩, ⟨0x0011, 9⟩]) ∧
    decodeApp [0x04, 0x03, 0x10, 0x00, 0x11, 0x00] = some (.writeAns 3 [0x0010, 0x0011]) ∧
    decodeApp [0x05, 0x03, 0x10] = some (.listCmd 3 [0x10]) ∧ decodeApp [0x06, 0x03, 0x10] = some (.listAns 3 [0x10]) ∧
    decodeApp [0x07, 0x03, 0x10] = some (.findCmd 3 [0x10]) ∧
    decodeApp [0x08, 0x03, 0x10] = some (.findAns 3 [0x10]) := by decide

/-- V7: at or below header size, no multiple of the record size, unknown codes. -/
theorem test_decode_app_rejects :
    decodeApp [] = none ∧ decodeApp [0x01] = none ∧ decodeApp [0x01, 0x03] = none ∧
    decodeApp [0x01, 0x03, 0x10] = none ∧ decodeApp [0x03, 0x03, 0x10, 0x00, 0x07, 0x00, 0x00] = none ∧
    decodeApp [0x00, 0x03, 0, 0, 0, 0, 0, 0] = none ∧ decodeApp [0x09, 0x03, 0, 0, 0, 0, 0, 0] = none := by decide

/-- W5 and V2. -/
theorem test_decode_fc_accepts :
    decodeFcRx 0x8861 = some (.linkFcFilter false true 0 0) ∧ decodeFcRx 0x8871 = some (.linkFcFilter true true 0 0) ∧
    decodeFcRx 0x8841 = some (.linkFcFilter false false 0 0) ∧ decodeFcRx 0x8851 = some (.linkFcFilter true false 0 0) ∧
    decodeFcRx 0x9861 = some (.linkFcFilter false true 0 1) ∧ decodeFcRx 0xA861 = some (.linkFcFilter false true 0 2) ∧
    decodeFcRx 0x88E1 = some (.linkFcFilter false true 1 0) ∧ decodeFcRx 0x8B61 = some (.linkFcFilter false true 6 0) ∧
    decodeFcTx 0x8861 = some (.linkFcTx 0) ∧ decodeFcTx 0x9861 = some (.linkFcTx 1) ∧ decodeFcTx 0x8841 = none := by decide

/-- W5 and V2. -/
theorem test_decode_fc_rejects :
    decodeFcRx 0x8869 = none ∧ decodeFcRx 0x8461 = none ∧ decodeFcRx 0x4861 = none ∧ decodeFcRx 0x8860 = none ∧
    decodeFcRx 0x8862 = none ∧ decodeFcRx 0x8863 = none ∧ decodeFcRx 0x8865 = none ∧ decodeFcRx 0xC861 = none ∧
    decodeFcRx 0x8C61 = none ∧ decodeFcRx 0x0861 = none ∧ decodeFcRx 0x8061 = none ∧ decodeFcRx 0x8821 = none ∧
    decodeFcRx 0x0000 = none ∧ decodeFcRx 0xFFFF = none := by decide

/-- The table's words, by their format. -/
theorem test_decode_table_words :
    decodeTableWord 8 0x2B = some .appUpdate ∧ decodeTableWord 8 0x10 = some (.linkInit 0 0) ∧
    decodeTableWord 8 0x07 = some (.findCmd 0 [0, 0, 0, 0, 0, 0]) ∧
    decodeTableWord 16 0x8861 = some (.linkFcTx 0) ∧
    decodeTableWord 16 0x8841 = some (.linkFcFilter false false 0 0) ∧ decodeTableWord 8 0x3E = none := by decide

/-- A table word runs as the very next step from reset: LINK_INIT, and the filter pattern. -/
theorem test_placed_words_run :
    gives (step (State.withFetchWord State.reset 8 0x10)) (fun t => t.linkReady && t.panId == 0) = true ∧
    gives (step (State.withFetchWord State.reset 16 0x8841)) (fun t => t.lastSrc == 0) = true := by decide

/-! ## RADIO -/

/-- I1 masks before it clears (R181). -/
theorem test_radio_init_masks :
    gives (exec .radioInit { bench with rxWaiting := true, rxQueued := true })
      (fun t => !t.irqEn && !t.rxWaiting && !t.rxQueued && t.chip.resets == 0) = true := by decide

theorem test_radio_get_tx_packet : answers (exec .radioGetTxPacket bench) (.txPacket 0 127) = true := by decide

/-- V5: 128 is refused, 127 is not. -/
theorem test_radio_send_size :
    answers (exec (.radioPacketSend 128) bench) (.bool false) = true ∧
    gives (exec (.radioPacketSend 127) bench) (fun t => t.result.isNone && t.irqEn) = true := by decide

/-- W8: at 1049 the wait goes on, at 1050 it ends. -/
theorem test_wait_times_out_at_fifty :
    gives (step { at_ (.radioPacketSend 14) (.t9 1000) bench with clock := 1049 })
      (fun t => runningAt t == some (.t7 1000)) = true ∧
    gives (step { at_ (.radioPacketSend 14) (.t9 1000) bench with clock := 1050 })
      (fun t => runningAt t == some (.t10 false)) = true := by decide

/-- W8: t0 is the clock read at T6. -/
theorem test_wait_starts_at_the_clock :
    gives (step (at_ (.radioPacketSend 14) .t6 bench)) (fun t => runningAt t == some (.t7 1000)) = true := by decide

/-- V5: t0 = 2^32 - 10, differences 49 and 50 across the wrap of the counter. -/
theorem test_wait_wraps :
    gives (step { at_ (.radioPacketSend 14) (.t9 4294967286) bench with clock := 4294967296 + 39 })
      (fun t => runningAt t == some (.t7 4294967286)) = true ∧
    gives (step { at_ (.radioPacketSend 14) (.t9 4294967286) bench with clock := 4294967296 + 40 })
      (fun t => runningAt t == some (.t10 false)) = true := by decide

/-- V5: LISTEN needs no command from LISTEN, CMD_LISTEN from IDLE, CMD_RECOVER from OTHER, a spin from BUSY. -/
theorem test_set_state_chooses :
    gives (step (at_ .radioInit (.ss1 .init) (chipShows 3 0 false bench))) (fun t => runningAt t == some .i4) = true ∧
    gives (step (at_ .radioInit (.ss1 .init) (chipShows 2 0 false bench)))
      (fun t => runningAt t == some (.ss2 .init .listen)) = true ∧
    gives (step (at_ .radioInit (.ss1 .init) (chipShows 7 0 false bench)))
      (fun t => runningAt t == some (.ss2 .init .recover)) = true ∧
    gives (step (at_ (.radioPacketSend 1) (.ss1 (.transmit 1)) (chipShows 1 0 false bench)))
      (fun t => runningAt t == some (.ss1 (.transmit 1))) = true := by decide

theorem test_radio_is_packet_available :
    answers (exec .radioIsPacketAvailable bench) (.bool false) = true ∧
    answers (exec .radioIsPacketAvailable (holding 0 [] bench)) (.bool true) = true := by decide

/-- V6: an empty frame is still a frame for RADIO. -/
theorem test_radio_get_rx_packet :
    answers (exec .radioGetRxPacket bench) (.rxPacket none) = true ∧
    answers (exec .radioGetRxPacket (holding 0 [] bench)) (.rxPacket (some (1, 0))) = true := by decide

/-- W7: D1 leaves the queued flag. -/
theorem test_radio_dismiss_keeps_queued :
    gives (exec .radioDismissRxPacket { holding 3 [1, 2, 3] bench with rxQueued := true })
      (fun t => !t.rxWaiting && t.rxQueued && t.rxBuf.read 1 == 1) = true := by decide

/-- V6: the ISR on a waiting slot queues and leaves the frame in the chip; a length above 127 faults. -/
theorem test_isr_queues_or_faults :
    gives (step (coming [.isr] (holding 3 [1, 2, 3] (chipShows 3 8 true bench))))
      (fun t => t.rxQueued && t.rxBuf.read 0 == 3 && !t.chip.regs.irqLine) = true ∧
    faults (step (coming [.isr] { chipShows 3 8 true bench with
      chip := { bench.chip with regs := ⟨3, 8, true, 0⟩, buffer := .received 200 [] } })) .chipLength = true := by decide

/-! ## LINK -/

theorem test_link_init :
    gives (exec (.linkInit 0x1234 0x0001) cold) (fun t => t.panId == 0x1234 && t.localAddr == 1 && t.linkReady) = true := by
  decide

theorem test_link_set_dst : gives (exec (.linkSetDst 0x5555) bench) (fun t => t.dstAddr == 0x5555) = true := by decide

/-- V1: before LINK_INIT it faults. -/
theorem test_link_get_src :
    answers (exec .linkGetSrc bench) (.half 0x7777) = true ∧
    faults (exec .linkGetSrc { cold with radioReady := true }) .notInitialised = true := by decide

theorem test_link_get_tx_packet : answers (exec .linkGetTxPacket bench) (.txPacket 9 116) = true := by decide

/-- V3: 117 is refused with the sequence number kept. -/
theorem test_link_send_size :
    gives (exec (.linkPacketSend 117) { bench with seq := 7 }) (fun t => t.result == some (.bool false) && t.seq == 7) = true ∧
    gives (exec (.linkPacketSend 116) bench) (fun t => runningAt t == some (.l2 116)) = true := by decide

/-- V3, first row, with W4's wrap in the sequence number. -/
theorem test_link_encap :
    gives (step (at_ (.linkPacketSend 3) (.l2 3)
        { bench with seq := 5, txBuf := ⟨Memory.fromBytes 9 [0xAA, 0xBB, 0xCC], 0⟩ }))
      (fun t => t.txBuf.slice 0 14 == fcData ++ [0xAA, 0xBB, 0xCC, 0, 0] && t.seq == 6) = true ∧
    gives (step (at_ (.linkPacketSend 0) (.l2 0) { bench with seq := 255, cfg := { benchCfg with fcVersion := 1 } }))
      (fun t => t.txBuf.slice 0 3 == [0x61, 0x98, 0xFF] && t.seq == 0) = true := by decide

theorem test_link_is_packet_available :
    answers (exec .linkIsPacketAvailable (holding 0 [] bench)) (.bool true) = true := by decide

/-- V4: lengths 14 and 11 are accepted. -/
theorem test_link_get_accepts :
    gives (exec .linkGetRxPacket (holding 14 (fcData ++ [0xAA, 0xBB, 0xCC, 0xC0, 0xC1]) bench))
      (fun t => t.result == some (.rxPacket (some (10, 3))) && t.lastSrc == 0x0001) = true ∧
    answers (exec .linkGetRxPacket (holding 11 (fcData ++ [0xC0, 0xC1]) bench)) (.rxPacket (some (10, 0))) = true := by decide

/-- V4: a length of 10 and the security bit are rejected, the source address kept. -/
theorem test_link_get_rejects :
    gives (exec .linkGetRxPacket (holding 10 (fcData ++ [0xC0]) bench))
      (fun t => t.result == some (.rxPacket none) && t.lastSrc == 0x7777) = true ∧
    answers (exec .linkGetRxPacket (holding 14 (0x69 :: fcData.tail ++ [0xAA, 0xBB, 0xCC, 0xC0, 0xC1]) bench))
      (.rxPacket none) = true := by decide

theorem test_link_dismiss :
    gives (exec .linkDismissRxPacket (holding 3 [1, 2, 3] bench)) (fun t => !t.rxWaiting) = true := by decide

theorem test_fc_patterns :
    gives (exec (.linkFcTx 1) bench) (fun t => t.txBuf.slice 0 2 == [0x61, 0x98]) = true ∧
    gives (exec (.linkFcFilter true false 0 2) (holding 11 (fcData ++ [0, 0]) bench)) (fun t => t.lastSrc == 1) = true := by
  decide

/-! ## APP -/

/-- APP_INIT empties the registry and does not need the ready flags (R249, R37). -/
theorem test_app_init :
    gives (exec .appInit { cold with handlers := [⟨3, true, true⟩], cbReadAns := true })
      (fun t => t.handlers.isEmpty && !t.cbReadAns && t.appReady) = true := by decide

theorem test_app_set_callbacks :
    gives (exec (.appSetReadAnsCb 1) bench) (fun t => t.cbReadAns && !t.cbWriteAns) = true ∧
    gives (exec (.appSetWriteAnsCb 0) { bench with cbWriteAns := true, cbReadAns := true })
      (fun t => t.cbReadAns && !t.cbWriteAns) = true := by decide

/-- V7, W3. -/
theorem test_app_counts :
    answers (exec .appGetReadBuf bench) (.records 11 19) = true ∧
    answers (exec .appGetWriteBuf bench) (.records 11 19) = true ∧
    answers (exec (.appMaxCount 0x04) bench) (.byte 19) = true ∧
    answers (exec (.appMaxCount 0x05) bench) (.byte 0) = true := by decide

/-- W3. -/
theorem test_record_count_boundaries :
    recordCount 2 2 = 0 ∧ recordCount 3 2 = 0 ∧ recordCount 4 2 = 1 ∧ recordCount 2 6 = 0 ∧ recordCount 7 6 = 0 ∧
    recordCount 8 6 = 1 ∧ recordCount 116 6 = 19 ∧ recordCount 116 2 = 57 ∧ recordCount 1 6 = 0 := by decide

/-- V8: 19 goes on, 20 is refused. -/
theorem test_app_send_cmd_counts :
    gives (exec (.appSendReadCmd 3 19) bench) (fun t => runningAt t == some (.a2 0x01 (some 3) 19)) = true ∧
    answers (exec (.appSendReadCmd 3 20) bench) (.bool false) = true ∧
    gives (exec (.appSendWriteCmd 3 19) bench) (fun t => runningAt t == some (.a2 0x03 (some 3) 19)) = true ∧
    answers (exec (.appSendWriteCmd 3 20) bench) (.bool false) = true := by decide

theorem test_app_send_ans_counts :
    gives (exec (.appSendReadAns 1) bench) (fun t => runningAt t == some (.a2 0x02 none 1)) = true ∧
    answers (exec (.appSendReadAns 20) bench) (.bool false) = true ∧
    gives (exec (.appSendWriteAns 19) bench) (fun t => runningAt t == some (.a2 0x04 none 19)) = true ∧
    answers (exec (.appSendWriteAns 20) bench) (.bool false) = true := by decide

/-- V8: the header carries the code and the endpoint, the dispatch context for an answer. -/
theorem test_app_encap :
    gives (step (at_ (.appSendWriteCmd 3 2) (.a2 0x03 (some 3) 2) bench))
      (fun t => t.txBuf.slice 9 2 == [0x03, 0x03] && runningAt t == some (.l1 14)) = true ∧
    gives (step (at_ (.appSendReadAns 1) (.a2 0x02 none 1) { bench with dispatchEp := 9 }))
      (fun t => t.txBuf.slice 9 2 == [0x02, 0x09] && runningAt t == some (.l1 8)) = true := by decide

/-- V9, with N_HANDLERS = 2. -/
theorem test_app_register :
    answers (exec (.appRegisterHandler 3 2) bench) (.handler (some 0)) = true ∧
    gives (exec (.appRegisterHandler 3 3) { bench with handlers := [⟨3, false, true⟩] })
      (fun t => t.handlers == [⟨3, false, true⟩, ⟨3, true, true⟩] && t.result == some (.handler (some 1))) = true ∧
    answers (exec (.appRegisterHandler 5 1) { bench with handlers := [⟨3, false, true⟩, ⟨3, true, true⟩] })
      (.handler none) = true := by decide

/-- V9: with nothing waiting the poll returns. -/
theorem test_app_update :
    gives (exec .appUpdate bench) (fun t => t.result == some .unit && t.frames.isEmpty) = true ∧
    gives (exec .appUpdate (holding 0 [] bench)) (fun t => runningAt t == some .u2) = true := by decide

/-- P2: the frame of P1 goes to the slave walk, its source address cached. -/
theorem test_received_write_cmd :
    gives (step (at_ .appUpdate .u2 (holding 25 writeCmdFrame bench)))
      (fun t => t.lastSrc == 0x0001 && runningAt t == some (.sd1 .write 0 3 2)) = true := by decide

theorem test_received_read_cmd :
    gives (exec (.readCmd 3 [0x0010]) (at_ .appUpdate .u2 bench)) (fun t => runningAt t == some (.sd1 .read 0 3 1)) = true := by
  decide

/-- V9: an answer goes to its own callback only. -/
theorem test_received_answers :
    gives (exec (.readAns 3 [⟨1, 1⟩, ⟨2, 2⟩]) (at_ .appUpdate .u2 { bench with cbReadAns := true }))
      (fun t => runningAt t == some (.u4 ⟨.readAnsCb, none, 3, 12, 2⟩)) = true ∧
    gives (exec (.readAns 3 [⟨1, 1⟩, ⟨2, 2⟩]) (at_ .appUpdate .u2 { bench with cbWriteAns := true }))
      (fun t => runningAt t == some .d1) = true ∧
    gives (exec (.writeAns 7 [1]) (at_ .appUpdate .u2 { bench with cbWriteAns := true }))
      (fun t => runningAt t == some (.u4 ⟨.writeAnsCb, none, 7, 12, 1⟩)) = true := by decide

/-- V9: a reserved code is dropped. -/
theorem test_received_reserved :
    gives (exec (.listCmd 3 [1]) (at_ .appUpdate .u2 bench)) (fun t => runningAt t == some .d1) = true ∧
    gives (exec (.listAns 3 [1]) (at_ .appUpdate .u2 bench)) (fun t => runningAt t == some .d1) = true ∧
    gives (exec (.findCmd 3 [1]) (at_ .appUpdate .u2 bench)) (fun t => runningAt t == some .d1) = true ∧
    gives (exec (.findAns 3 [1]) (at_ .appUpdate .u2 bench)) (fun t => runningAt t == some .d1) = true := by decide

/-- V9: the read callback alone answers a READ_CMD; the dispatch context is written with the upcall only. -/
theorem test_slave_walk :
    gives (step (at_ .appUpdate (.sd1 .read 0 3 1) { bench with handlers := [⟨3, false, true⟩], dispatchEp := 8 }))
      (fun t => runningAt t == some (.sd2 .read 0 3 1) && t.dispatchEp == 8) = true ∧
    gives (step (at_ .appUpdate (.sd1 .read 0 3 1) { bench with handlers := [⟨3, true, false⟩], dispatchEp := 8 }))
      (fun t => (t.frames.head?.bind Frame.upcall) == some ⟨.slave .read, some 0, 3, 12, 1⟩ && t.dispatchEp == 3) = true := by
  decide

/-! ## The host port -/

/-- V1. -/
theorem test_txbuf_write :
    gives (exec (.txbufWrite 126 0xAA) cold) (fun t => t.txBuf.read 126 == 0xAA) = true ∧
    faults (exec (.txbufWrite 127 0) cold) .badIndex = true := by decide

theorem test_txbuf_read :
    answers (exec (.txbufRead 9) { cold with txBuf := ⟨[(9, 0x5A)], 0⟩ }) (.byte 0x5A) = true ∧
    faults (exec (.txbufRead 127) cold) .badIndex = true := by decide

/-- V1. -/
theorem test_rxbuf_read :
    answers (exec (.rxbufRead 127) { cold with rxBuf := ⟨[(127, 0x5A)], 0⟩ }) (.byte 0x5A) = true ∧
    faults (exec (.rxbufRead 128) cold) .badIndex = true := by decide

/-- V1: idle, it faults. -/
theorem test_upcall_return :
    faults (exec .upcallReturn bench) .noUpcall = true ∧
    gives (exec .upcallReturn (inUpcall bench)) (fun t => runningAt t == some .d1) = true := by decide

/-- V1: the operand check comes before the ready check (R302). -/
theorem test_check_order :
    faults (step (hostSays [0x28, 0x03, 0x04] cold)) .badOperand = true ∧
    faults (step (hostSays [0x28, 0x03, 0x02] cold)) .notInitialised = true ∧
    faults (step (hostSays [0x07] cold)) .illegalOpcode = true := by decide

/-! ## Every statement with hypotheses has a state that meets them -/

theorem witness_HostCommandsRoundTrip :
    (Instr.appRegisterHandler 3 3).source = .host ∧ (Instr.appRegisterHandler 3 3).wf = true ∧
    (Instr.linkInit 0x1234 1).source = .host ∧ (Instr.linkInit 0x1234 1).wf = true := by decide

theorem witness_WireFormatsRoundTrip :
    (Instr.readAns 9 [⟨0x10, 0xDEADBEEF⟩]).source ≠ .host ∧ (Instr.readAns 9 [⟨0x10, 0xDEADBEEF⟩]).wf = true ∧
    (Instr.linkFcTx 3).source ≠ .host ∧ (Instr.linkFcFilter true true 7 3).source ≠ .host := by decide

theorem witness_DecodedInstructionIsItsEncoding :
    decodeHost [0x28, 0x03, 0x03, 0x3F] = .ok (.appRegisterHandler 3 3) [0x3F] ∧
    decodeApp [0x05, 0x03, 0x10] = some (.listCmd 3 [0x10]) := by decide

theorem witness_FilterAcceptsExactlyTheDataPattern : fcAccepted 0x8861 = true ∧ fcAccepted 0x8869 = false := by decide

theorem witness_StepRunsDecodedCommand :
    undisturbed (hostSays [0x11, 0x02, 0x00, 0x04] bench) ∧
    hostMayIssue (hostSays [0x11, 0x02, 0x00, 0x04] bench) = true ∧
    decodeHost (hostSays [0x11, 0x02, 0x00, 0x04] bench).port = .ok (.linkSetDst 2) [0x04] ∧
    undisturbed (inUpcall (hostSays [0x3F] bench)) ∧ hostMayIssue (inUpcall (hostSays [0x3F] bench)) = true ∧
    decodeHost (inUpcall (hostSays [0x3F] bench)).port = .ok .upcallReturn [] := by
  simp only [undisturbed]; decide

def received : State := at_ .appUpdate .u2 (holding 25 writeCmdFrame bench)

theorem witness_StepRunsReceivedFrame :
    undisturbed received ∧ runningAt received = some .u2 ∧ (rxFilter received).isSome = true ∧
    decodeApp (received.rxBuf.slice 10 (rxPayloadSize received)) =
      some (.writeCmd 3 [⟨0x0010, 7⟩, ⟨0x0011, 9⟩]) := by
  simp only [undisturbed]; decide

theorem witness_IllegalOpcodeFaults :
    undisturbed (hostSays [0x07] cold) ∧ hostMayIssue (hostSays [0x07] cold) = true ∧
    (hostSays [0x07] cold).port = 0x07 :: [] ∧ (0x07 : Byte).toNat ∉ hostOpcodes ∧
    (0x40 : Byte).toNat ∉ hostOpcodes ∧ (0x00 : Byte).toNat ∉ hostOpcodes := by
  simp only [undisturbed]; decide

/-- One state for each clause, with the smallest bad operand. -/
theorem witness_BadOperandFaults :
    (undisturbed (hostSays [0x21, 2] cold) ∧ hostMayIssue (hostSays [0x21, 2] cold) = true ∧ 1 < (2 : Byte).toNat ∧
      (hostSays [0x21, 2] cold).port = 0x21 :: 2 :: []) ∧
    (undisturbed (hostSays [0x22, 2] cold) ∧ hostMayIssue (hostSays [0x22, 2] cold) = true ∧
      (hostSays [0x22, 2] cold).port = 0x22 :: 2 :: []) ∧
    (undisturbed (hostSays [0x28, 3, 4] cold) ∧ hostMayIssue (hostSays [0x28, 3, 4] cold) = true ∧ 3 < (4 : Byte).toNat ∧
      (hostSays [0x28, 3, 4] cold).port = 0x28 :: 3 :: 4 :: []) := by
  simp only [undisturbed]; decide

theorem witness_FaultEndsTheRun :
    ({ bench with fault := some .badIndex, sched := [.go, .reset] } : State).fault = some .badIndex ∧
    ∀ rest, ({ bench with fault := some .badIndex, sched := [.go, .reset] } : State).sched ≠ .reset :: rest :=
  ⟨rfl, fun _ h => nomatch h⟩

/-- A command of each sub-block with a ready flag missing. -/
theorem witness_NotInitialisedFaults :
    (gateOf (.radioPacketSend 1) = some .radio ∧ (Instr.radioPacketSend 1).wf = true ∧ isReady cold .radio = false) ∧
    (gateOf .linkGetSrc = some .link ∧ isReady { cold with radioReady := true } .link = false) ∧
    (gateOf (.appMaxCount 1) = some .app ∧ (Instr.appMaxCount 1).wf = true ∧
      isReady { cold with radioReady := true, linkReady := true } .app = false) := by decide

theorem witness_ResetEventStartsANewRun :
    ({ bench with fault := some .badIndex, sched := [.reset, .go] } : State).sched = .reset :: [.go] := rfl

/-- Both clauses of `answersWhenReady .radio`. -/
theorem witness_RadioQueriesAnswer : isReady bench .radio = true ∧ isReady cold .radio = false := by decide

/-- Both clauses of `answersWhenReady .link`, here and in LinkGetValidatesTheFrame. -/
theorem witness_LinkSettingsAndQueries :
    isReady bench .link = true ∧ isReady { cold with radioReady := true } .link = false := by decide

/-- Both clauses of `answersWhenReady .app`, in MaxCountIsNineteenOrZero, AppSettingsAndQueries,
RegisterAppendsOrAnswersNone, OversizedSendsRejected and UpdateWithoutUpcallCompletes. -/
theorem witness_answersWhenReady_app :
    isReady bench .app = true ∧ isReady { cold with radioReady := true, linkReady := true } .app = false := by decide

theorem witness_RadioInitCompletes :
    (coming (initScript benchCodes) cold).fault = none ∧
    statusClass (coming (initScript benchCodes) cold).cfg benchCodes.listen = .listen ∧
    (coming (initScript benchCodes) cold).sched = initScript benchCodes := by decide

/-- The smallest size each clause refuses. -/
theorem witness_OversizedSendsRejected :
    127 < (128 : Byte).toNat ∧ 116 < (117 : Byte).toNat ∧ 19 < (20 : Byte).toNat ∧ 19 < (255 : Byte).toNat := by decide

/-- The largest size, and the empty frame. -/
theorem witness_RadioSendCompletes :
    isReady (coming (transmitScript benchCodes 1) bench) .radio = true ∧
    (coming (transmitScript benchCodes 1) bench).fault = none ∧ (127 : Byte).toNat ≤ 127 ∧ (0 : Byte).toNat ≤ 127 ∧
    codesOk (coming (transmitScript benchCodes 1) bench).cfg benchCodes ∧
    statusClass (coming (transmitScript benchCodes 1) bench).cfg
      (coming (transmitScript benchCodes 1) bench).chip.regs.status = .listen ∧
    (coming (transmitScript benchCodes 1) bench).sched = transmitScript benchCodes 1 := by
  simp only [codesOk]; decide

theorem witness_SetStateFollowsTheTable :
    undisturbed (at_ .radioInit (.ss1 .init) bench) ∧
    runningAt (at_ .radioInit (.ss1 .init) bench) = some (.ss1 .init) ∧
    undisturbed (at_ (.radioPacketSend 1) (.ss2 (.transmit 1) .send) bench) ∧
    runningAt (at_ (.radioPacketSend 1) (.ss2 (.transmit 1) .send) bench) = some (.ss2 (.transmit 1) .send) := by
  simp only [undisturbed]; decide

/-- A status of every class, for the rows of the table. -/
theorem witness_SetStateFollowsTheTable_classes :
    statusClass benchCfg 1 = .busy ∧ statusClass benchCfg 2 = .idle ∧ statusClass benchCfg 3 = .listen ∧
    statusClass benchCfg 4 = .send ∧ statusClass benchCfg 5 = .other := by decide

theorem witness_SetStateSpinsWhileBusy :
    undisturbed (at_ .radioInit (.ss1 .init) (chipShows 1 0 false bench)) ∧
    runningAt (at_ .radioInit (.ss1 .init) (chipShows 1 0 false bench)) = some (.ss1 .init) ∧
    statusClass (at_ .radioInit (.ss1 .init) (chipShows 1 0 false bench)).cfg
      (at_ .radioInit (.ss1 .init) (chipShows 1 0 false bench)).chip.regs.status = .busy := by
  simp only [undisturbed]; decide

/-- T6; the line low; high with transmit-complete; high without. -/
theorem witness_WaitRoundFollowsItsSteps :
    (undisturbed (at_ (.radioPacketSend 1) .t6 bench) ∧
      runningAt (at_ (.radioPacketSend 1) .t6 bench) = some .t6) ∧
    (undisturbed (at_ (.radioPacketSend 1) (.t7 950) bench) ∧
      runningAt (at_ (.radioPacketSend 1) (.t7 950) bench) = some (.t7 950) ∧
      (at_ (.radioPacketSend 1) (.t7 950) bench).chip.regs.irqLine = false) ∧
    (undisturbed (at_ (.radioPacketSend 1) (.t7 950) (chipShows 4 12 true bench)) ∧
      runningAt (at_ (.radioPacketSend 1) (.t7 950) (chipShows 4 12 true bench)) = some (.t7 950) ∧
      (at_ (.radioPacketSend 1) (.t7 950) (chipShows 4 12 true bench)).chip.regs.irqLine = true) ∧
    irqTxDone benchCfg 12 = true ∧ irqTxDone benchCfg 8 = false := by
  simp only [undisturbed]; decide

/-- A timed-out send at T10, the interrupt masked. -/
def timedOut (status : Nat) (es : List Event) : State :=
  coming es (at_ (.radioPacketSend 1) (.t10 false) (chipShows status 0 false { bench with irqEn := false }))

/-- The chip at SEND with the script of the first clause, and at LISTEN with the second's. -/
theorem witness_TimedOutSendAnswersFalse :
    ((timedOut 4 [.go, .go, .go, .chip (.status 3), .go, .go]).fault = none ∧
      (timedOut 4 [.go, .go, .go, .chip (.status 3), .go, .go]).irqEn = false ∧
      runningAt (timedOut 4 [.go, .go, .go, .chip (.status 3), .go, .go]) = some (.t10 false) ∧
      statusClass benchCfg 4 = .send ∧ statusClass benchCfg 3 = .listen) ∧
    (timedOut 3 []).fault = none ∧ (timedOut 3 []).irqEn = false ∧ runningAt (timedOut 3 []) = some (.t10 false) ∧
      statusClass (timedOut 3 []).cfg (timedOut 3 []).chip.regs.status = .listen ∧ (timedOut 3 []).sched = [] := by decide

/-- The chip holds a received frame and shows reception-complete. -/
def arriving (len : Byte) (bytes : List Byte) : State :=
  { bench with sched := [.isr], chip := { bench.chip with regs := ⟨3, 8, true, 0⟩, buffer := .received len bytes } }

/-- A state for each of the ISR's cases: masked, no reception, queueing, the longest frame, one byte more. -/
theorem witness_IsrFollowsItsCases :
    (({ arriving 3 [1, 2, 3] with irqEn := false } : State).fault = none ∧
      ({ arriving 3 [1, 2, 3] with irqEn := false } : State).sched = .isr :: [] ∧
      ({ arriving 3 [1, 2, 3] with irqEn := false } : State).irqEn = false) ∧
    ((arriving 3 [1, 2, 3]).fault = none ∧ (arriving 3 [1, 2, 3]).sched = .isr :: [] ∧
      (arriving 3 [1, 2, 3]).irqEn = true ∧ (arriving 3 [1, 2, 3]).rxWaiting = false ∧
      irqRxDone (arriving 3 [1, 2, 3]).cfg (arriving 3 [1, 2, 3]).chip.regs.irqStatus = true) ∧
    irqRxDone (coming [.isr] bench).cfg (coming [.isr] bench).chip.regs.irqStatus = false ∧
    ({ arriving 3 [1, 2, 3] with rxWaiting := true } : State).rxWaiting = true ∧
    (chipFrame (arriving 127 [])).1.toNat ≤ 127 ∧ 127 < (chipFrame (arriving 128 [])).1.toNat := by decide

/-- A frame queued behind the one in RXBUF. -/
def withQueued (s : State) : State :=
  { s with rxQueued := true, chip := { s.chip with buffer := .received 2 [7, 8] } }

def queuedFrame : State := withQueued (holding 3 [1, 2, 3] bench)

/-- Both commands; not ready; nothing queued; a frame queued, short enough and too long. -/
theorem witness_DismissFollowsItsSteps :
    (∀ p ∈ [(Instr.radioDismissRxPacket, SubBlock.radio, (0x06 : Byte)), (.linkDismissRxPacket, .link, 0x17)],
      p.1 = .radioDismissRxPacket ∧ p.2.1 = .radio ∧ p.2.2 = 0x06 ∨
      p.1 = .linkDismissRxPacket ∧ p.2.1 = .link ∧ p.2.2 = 0x17) ∧
    isReady cold .radio = false ∧ isReady cold .link = false ∧
    (undisturbed (holding 3 [1, 2, 3] bench) ∧ isReady (holding 3 [1, 2, 3] bench) .link = true ∧
      isReady (holding 3 [1, 2, 3] bench) .radio = true ∧ (holding 3 [1, 2, 3] bench).rxQueued = false) ∧
    (undisturbed queuedFrame ∧ isReady queuedFrame .radio = true ∧ isReady queuedFrame .link = true ∧
      queuedFrame.rxQueued = true ∧ (chipFrame queuedFrame).1.toNat ≤ 127) ∧
    127 < (chipFrame { queuedFrame with chip := { bench.chip with buffer := .received 128 [] } }).1.toNat := by
  simp only [undisturbed]; decide

/-- An APP_UPDATE at its dismiss, with nothing queued and with a frame queued. -/
theorem witness_RunningDismissFollowsItsSteps :
    (undisturbed (at_ .appUpdate .d1 (holding 3 [1, 2, 3] bench)) ∧
      (at_ .appUpdate .d1 (holding 3 [1, 2, 3] bench)).frames = ⟨.appUpdate, .d1, none⟩ :: [] ∧
      (at_ .appUpdate .d1 (holding 3 [1, 2, 3] bench)).rxQueued = false) ∧
    (undisturbed (at_ .appUpdate .d1 queuedFrame) ∧ (at_ .appUpdate .d1 queuedFrame).rxQueued = true) := by
  simp only [undisturbed]; decide

theorem witness_ChipFrameIsTheHeldFrame :
    queuedFrame.chip.buffer = .received 2 [7, 8] ∧ [(7 : Byte), 8].length = (2 : Byte).toNat ∧
    bench.chip.buffer = .empty ∧ ∀ (len : Byte) (bytes : List Byte), bench.chip.buffer ≠ .received len bytes :=
  ⟨by decide, by decide, by decide, fun _ _ h => nomatch h⟩

/-- Both cases of the condition: a frame of exactly 11 bytes that passes, and one of 10. -/
theorem witness_LinkGetValidatesTheFrame :
    ((holding 11 (fcData ++ [0, 0]) bench).rxWaiting = true ∧
      11 ≤ ((holding 11 (fcData ++ [0, 0]) bench).rxBuf.read 0).toNat ∧
      (holding 11 (fcData ++ [0, 0]) bench).rxBuf.getLE16 1 &&& fcMask = fcExpect) ∧
    ¬ 11 ≤ ((holding 10 (fcData ++ [0]) bench).rxBuf.read 0).toNat := by decide

theorem witness_LinkEncapWritesHeaderAndTrailer :
    undisturbed (at_ (.linkPacketSend 116) (.l2 116) bench) ∧
    runningAt (at_ (.linkPacketSend 116) (.l2 116) bench) = some (.l2 116) ∧
    undisturbed (at_ (.linkPacketSend 0) (.l2 0) bench) ∧
    runningAt (at_ (.linkPacketSend 0) (.l2 0) bench) = some (.l2 0) := by
  simp only [undisturbed]; decide

def linkSending : State := coming ([.go, .go] ++ transmitScript benchCodes 1) bench

theorem witness_LinkSendCompletes :
    isReady linkSending .link = true ∧ linkSending.fault = none ∧ (116 : Byte).toNat ≤ 116 ∧
    codesOk linkSending.cfg benchCodes ∧ statusClass linkSending.cfg linkSending.chip.regs.status = .listen ∧
    linkSending.sched = [.go, .go] ++ transmitScript benchCodes 1 := by
  simp only [codesOk]; decide

/-- The edges of the two ranges of codes. -/
theorem witness_MaxCountIsNineteenOrZero :
    (1 ≤ (1 : Byte).toNat ∧ (1 : Byte).toNat ≤ 4) ∧ (1 ≤ (4 : Byte).toNat ∧ (4 : Byte).toNat ≤ 4) ∧
    ¬ (1 ≤ (0 : Byte).toNat) ∧ ¬ ((5 : Byte).toNat ≤ 4) := by decide

theorem witness_AppSettingsAndQueries : 1 < (2 : Byte).toNat ∧ 1 < (255 : Byte).toNat := by decide

/-- Room, a full registry, and the edges of the flags. -/
theorem witness_RegisterAppendsOrAnswersNone :
    (3 : Byte).toNat ≤ 3 ∧ 3 < (4 : Byte).toNat ∧ bench.handlers.length ≠ nHandlers bench.cfg ∧
    ({ bench with handlers := [⟨3, true, true⟩, ⟨4, true, true⟩] } : State).handlers.length = nHandlers benchCfg := by
  decide

def appSending : State :=
  coming ([.go, .go, .go, .go] ++ transmitScript benchCodes 1) { bench with dispatchEp := 9 }

/-- All four forms, with the largest count. -/
theorem witness_AppSendsComplete :
    (∀ i ∈ [Instr.appSendReadCmd 3 19, Instr.appSendWriteCmd 3 19, Instr.appSendReadAns 19, Instr.appSendWriteAns 19],
      ∃ (cmd ep : Byte) (size : Nat),
        (i = .appSendReadCmd ep 19 ∧ cmd = 0x01 ∧ size = 2 ∨ i = .appSendWriteCmd ep 19 ∧ cmd = 0x03 ∧ size = 6 ∨
          i = .appSendReadAns 19 ∧ cmd = 0x02 ∧ size = 6 ∧ ep = appSending.dispatchEp ∨
          i = .appSendWriteAns 19 ∧ cmd = 0x04 ∧ size = 2 ∧ ep = appSending.dispatchEp)) ∧
    isReady appSending .app = true ∧ appSending.fault = none ∧ (19 : Byte).toNat ≤ 19 ∧
    codesOk appSending.cfg benchCodes ∧ statusClass appSending.cfg appSending.chip.regs.status = .listen ∧
    appSending.sched = [.go, .go, .go, .go] ++ transmitScript benchCodes 1 := by
  refine ⟨List.forall_mem_cons.2 ⟨⟨0x01, 3, 2, .inl ⟨rfl, rfl, rfl⟩⟩, List.forall_mem_cons.2
    ⟨⟨0x03, 3, 6, .inr (.inl ⟨rfl, rfl, rfl⟩)⟩, List.forall_mem_cons.2
      ⟨⟨0x02, 9, 6, .inr (.inr (.inl ⟨rfl, rfl, rfl, rfl⟩))⟩, List.forall_mem_cons.2
        ⟨⟨0x04, 9, 2, .inr (.inr (.inr ⟨rfl, rfl, rfl, rfl⟩))⟩, nofun⟩⟩⟩⟩, by simp only [codesOk]; decide⟩

/-- Nothing waiting; a frame LINK rejects; an accepted frame whose payload is no application frame; either with a frame
queued. -/
theorem witness_UpdateWithoutUpcallCompletes :
    bench.rxWaiting = false ∧
    (undisturbed (holding 10 (fcData ++ [0]) bench) ∧ isReady (holding 10 (fcData ++ [0]) bench) .app = true ∧
      (holding 10 (fcData ++ [0]) bench).rxWaiting = true ∧ (holding 10 (fcData ++ [0]) bench).rxQueued = false ∧
      rxFilter (holding 10 (fcData ++ [0]) bench) = none) ∧
    (undisturbed (holding 11 (fcData ++ [0, 0]) bench) ∧ isReady (holding 11 (fcData ++ [0, 0]) bench) .app = true ∧
      (holding 11 (fcData ++ [0, 0]) bench).rxWaiting = true ∧
      rxFilter (holding 11 (fcData ++ [0, 0]) bench) ≠ none ∧
      decodeApp ((holding 11 (fcData ++ [0, 0]) bench).rxBuf.slice 10
        (rxPayloadSize (holding 11 (fcData ++ [0, 0]) bench))) = none) ∧
    (undisturbed (withQueued (holding 10 (fcData ++ [0]) bench)) ∧
      (withQueued (holding 10 (fcData ++ [0]) bench)).rxWaiting = true ∧
      (withQueued (holding 10 (fcData ++ [0]) bench)).rxQueued = true ∧
      rxFilter (withQueued (holding 10 (fcData ++ [0]) bench)) = none ∧
      rxFilter (withQueued (holding 11 (fcData ++ [0, 0]) bench)) ≠ none) := by
  simp only [undisturbed]; decide

def served : State :=
  { holding 25 writeCmdFrame bench with handlers := [⟨4, true, true⟩, ⟨3, true, false⟩, ⟨3, false, true⟩, ⟨3, true, true⟩] }

/-- The first match at position 2: another endpoint and an entry without the callback stand before it. -/
theorem witness_UpdatePresentsSlaveUpcall :
    undisturbed served ∧ isReady served .app = true ∧ served.rxWaiting = true ∧ (rxFilter served).isSome = true ∧
    decodeApp (served.rxBuf.slice 10 (rxPayloadSize served)) = some (.writeCmd 3 [⟨0x0010, 7⟩, ⟨0x0011, 9⟩]) ∧
    served.handlers = [⟨4, true, true⟩, ⟨3, true, false⟩] ++ ⟨3, false, true⟩ :: [⟨3, true, true⟩] ∧
    (∀ e ∈ [(⟨4, true, true⟩ : Handler), ⟨3, true, false⟩], isCalled .write 3 e = false) ∧
    isCalled .write 3 ⟨3, false, true⟩ = true ∧ outstanding served ≠ maxUpcallDepth served.cfg := by
  simp only [undisturbed]; decide

/-- APP_UPDATE at an entry of the registry, above `depth` suspended frames. -/
def walking (depth i : Nat) : State :=
  { bench with
    handlers := [⟨3, false, true⟩, ⟨4, true, true⟩]
    frames := ⟨.appUpdate, .sd1 .write i 3 2, none⟩ ::
      List.replicate depth ⟨.appUpdate, .d1, some ⟨.readAnsCb, none, 3, 12, 1⟩⟩ }

/-- Past the end, an entry that is skipped, one that is called with room and without, and SD2. -/
theorem witness_SlaveDispatchFollowsTheWalk :
    (undisturbed (walking 0 2) ∧ (walking 0 2).frames = ⟨.appUpdate, .sd1 .write 2 3 2, none⟩ :: [] ∧
      (walking 0 2).handlers.length ≤ 2) ∧
    ((walking 0 1).handlers[1]? = some ⟨4, true, true⟩ ∧ isCalled .write 3 ⟨4, true, true⟩ = false) ∧
    ((walking 0 0).handlers[0]? = some ⟨3, false, true⟩ ∧ isCalled .write 3 ⟨3, false, true⟩ = true ∧
      outstanding (walking 0 0) ≠ maxUpcallDepth (walking 0 0).cfg) ∧
    (undisturbed (walking 2 0) ∧ outstanding (walking 2 0) = maxUpcallDepth (walking 2 0).cfg) ∧
    (undisturbed (at_ .appUpdate (.sd2 .write 0 3 2) bench) ∧
      (at_ .appUpdate (.sd2 .write 0 3 2) bench).frames = ⟨.appUpdate, .sd2 .write 0 3 2, none⟩ :: []) := by
  simp only [undisturbed]; decide

theorem witness_SlaveWalkCallsEveryMatch :
    undisturbed (hostSays [0x3F] (walking 0 0)) ∧
    (hostSays [0x3F] (walking 0 0)).frames = ⟨.appUpdate, .sd1 .write 0 3 2, none⟩ :: [] ∧
    outstanding (hostSays [0x3F] (walking 0 0)) < maxUpcallDepth (hostSays [0x3F] (walking 0 0)).cfg ∧
    (hostSays [0x3F] (walking 0 0)).port =
      List.replicate (slaveUpcalls .write 3 2 0 (hostSays [0x3F] (walking 0 0)).handlers).length 0x3F := by
  simp only [undisturbed]; decide

/-- The master's upcall, above `depth` suspended frames. -/
def presenting (depth : Nat) : State :=
  { walking depth 0 with
    frames := ⟨.appUpdate, .u4 ⟨.readAnsCb, none, 3, 12, 2⟩, none⟩ :: (walking depth 0).frames.tail }

theorem witness_MasterRoutingFollowsTheRule :
    (undisturbed (presenting 0) ∧
      (presenting 0).frames = ⟨.appUpdate, .u4 ⟨.readAnsCb, none, 3, 12, 2⟩, none⟩ :: [] ∧
      outstanding (presenting 0) ≠ maxUpcallDepth (presenting 0).cfg) ∧
    (undisturbed (presenting 2) ∧ outstanding (presenting 2) = maxUpcallDepth (presenting 2).cfg) := by
  simp only [undisturbed]; decide

/-- A suspended top frame, an idle block, and a running top frame. -/
theorem witness_UpcallReturnResumes :
    ((inUpcall bench).frames = ⟨.appUpdate, .d1, some ⟨.readAnsCb, none, 3, 12, 1⟩⟩ :: [] ∧
      (⟨.appUpdate, .d1, some ⟨.readAnsCb, none, 3, 12, 1⟩⟩ : Frame).upcall ≠ none) ∧
    (∀ (f : Frame) (rest : List Frame), bench.frames = f :: rest → f.upcall = none) ∧
    ∀ (f : Frame) (rest : List Frame), (walking 1 0).frames = f :: rest → f.upcall = none :=
  ⟨by decide, by simp [bench, cold, State.newRun], by simp [walking]⟩

/-- The last index of each buffer and the one past it. -/
theorem witness_BufferCommandsAct :
    (126 : Byte).toNat ≤ 126 ∧ 126 < (127 : Byte).toNat ∧ (127 : Byte).toNat ≤ 127 ∧ 127 < (128 : Byte).toNat := by decide

/-- A running send with the interrupt masked, a queued slot, a suspended frame and an entry in the registry: it meets every
invariant, and it steps. -/
def busyState : State :=
  { queuedFrame with
    irqEn := false
    handlers := [⟨3, false, true⟩]
    frames := [⟨.radioPacketSend 3, .t5, none⟩, ⟨.appUpdate, .d1, some ⟨.readAnsCb, none, 3, 12, 1⟩⟩] }

theorem witness_StepKeepsMemoryCanonical : memoryOk busyState ∧ ∃ t, step busyState = .next t :=
  ⟨⟨by decide, by decide, by simp [busyState, sizesOk]⟩, _, rfl⟩

theorem witness_StepKeepsStackDiscipline : stackOk busyState ∧ ∃ t, step busyState = .next t :=
  ⟨by simp only [stackOk]; decide, _, rfl⟩

theorem witness_StepKeepsSlotInvariant : slotOk busyState ∧ busyState.rxQueued = true ∧ ∃ t, step busyState = .next t :=
  ⟨fun _ => .inl rfl, rfl, _, rfl⟩

theorem witness_StepKeepsMaskInvariant :
    stackOk busyState ∧ maskOk busyState ∧ busyState.radioReady = true ∧ ∃ t, step busyState = .next t :=
  ⟨by simp only [stackOk]; decide, by simp only [maskOk]; decide, rfl, _, rfl⟩

theorem witness_StepKeepsRegistryWithinCapacity : registryOk busyState ∧ ∃ t, step busyState = .next t :=
  ⟨by simp only [registryOk]; decide, _, rfl⟩

/-- A step that is none of the exceptions, and one that is. -/
theorem witness_SequenceAdvancesOnlyAtEncapsulation :
    gives (step busyState) (fun t => t.seq == 0) = true ∧
    gives (step (at_ (.linkPacketSend 0) (.l2 0) bench)) (fun t => t.seq == 1) = true := by decide

theorem witness_DispatchContextWrittenOnlyBySlaveUpcall :
    gives (step (walking 0 1)) (fun t => runningAt t == some (.sd2 .write 1 3 2)) = true ∧
    gives (step (walking 0 0)) (fun t => t.dispatchEp == 3) = true := by decide

/-- A step that leaves it, a step at U2, and a LINK_GET_RX_PACKET. -/
theorem witness_LastSourceWrittenOnlyOnAcceptance :
    gives (step busyState) (fun t => t.lastSrc == 0x7777) = true ∧
    gives (step received) (fun t => t.lastSrc == 1) = true ∧
    gives (step (hostSays [0x16] (holding 25 writeCmdFrame bench))) (fun t => t.lastSrc == 1) = true := by decide

theorem witness_RegistryIsAppendOnly :
    gives (step busyState) (fun t => t.handlers.length == 1) = true ∧
    gives (step { walking 0 0 with frames := [], port := [0x20] }) (fun t => t.handlers.isEmpty) = true := by decide

theorem witness_WaitingFrameIsStable :
    (∃ t, step busyState = .next t) ∧ busyState.rxWaiting = true ∧ runningAt busyState ≠ some .d3 ∧
    ∀ rest, busyState.sched ≠ .reset :: rest :=
  ⟨⟨_, rfl⟩, rfl, by decide, fun _ h => nomatch h⟩

/-- The flag set by the ISR, and cleared by the queued path of a dismiss. -/
theorem witness_QueuedFlagWrittenOnlyByItsOwners :
    gives (step { arriving 3 [1, 2, 3] with rxWaiting := true }) (fun t => t.rxQueued) = true ∧
    gives (step (at_ .radioDismissRxPacket .d3 queuedFrame)) (fun t => !t.rxQueued && t.rxBuf.read 1 == 7) = true := by decide

theorem witness_FaultAndParametersPersist :
    gives (step { bench with fault := some .badIndex, sched := [.reset] }) (fun t => t.fault.isNone) = true := by decide

theorem witness_NoChipLengthFaultUnderCH3 :
    chipLengthsOk (arriving 3 [1, 2, 3]) ∧ ∃ t, step (arriving 3 [1, 2, 3]) = .next t :=
  ⟨⟨⟨by decide, rfl⟩, by simp [arriving, eventOk]⟩, _, rfl⟩

/-- A send that leaves the three addresses, LINK_SET_DST and LINK_INIT. -/
theorem witness_LinkConfigurationPersists :
    gives (step (at_ (.linkPacketSend 0) (.l2 0) bench)) (fun t => t.dstAddr == 2 && t.panId == 0x1234) = true ∧
    gives (step (hostSays [0x11, 0xFF, 0xFF] bench)) (fun t => t.dstAddr == 0xFFFF && t.localAddr == 1) = true ∧
    gives (step (hostSays [0x10, 0x78, 0x56, 0x09, 0x00] bench))
      (fun t => t.panId == 0x5678 && t.localAddr == 9 && t.dstAddr == 2) = true := by decide

/-- Two reasons with one code are one reason; codes of R301's table. -/
theorem witness_FaultCodesAreTheTable :
    (∃ r r' : Fault, r.code = r'.code) ∧ Fault.code .badIndex = 4 ∧ Fault.code .chipLength = 7 :=
  ⟨⟨.noUpcall, .noUpcall, rfl⟩, rfl, rfl⟩

end Sys2Proof.Tests
end

section
/-! The host-port commands (40_packet_interface.md R146 to R148, R151): what each answers in every case of its check, then
the statements about them. -/

namespace Sys2Proof.Machine

/-! ## The buffer commands: within the buffer and past its end -/

theorem exec_txbufWrite_of_lt {i : Byte} (h : i.toNat < txSize) (v : Byte) (s : State) :
    exec (.txbufWrite i v) s = .next { s with txBuf := s.txBuf.write i.toNat v, result := some .unit } :=
  if_neg (Nat.not_le.mpr h)

theorem exec_txbufWrite_of_ge {i : Byte} (h : txSize ≤ i.toNat) (v : Byte) (s : State) :
    exec (.txbufWrite i v) s = .next { s with fault := some .badIndex } :=
  if_pos h

theorem exec_txbufRead_of_lt {i : Byte} (h : i.toNat < txSize) (s : State) :
    exec (.txbufRead i) s = .next { s with result := some (.byte (s.txBuf.read i.toNat)) } :=
  if_neg (Nat.not_le.mpr h)

theorem exec_txbufRead_of_ge {i : Byte} (h : txSize ≤ i.toNat) (s : State) :
    exec (.txbufRead i) s = .next { s with fault := some .badIndex } :=
  if_pos h

theorem exec_rxbufRead_of_lt {i : Byte} (h : i.toNat < rxSize) (s : State) :
    exec (.rxbufRead i) s = .next { s with result := some (.byte (s.rxBuf.read i.toNat)) } :=
  if_neg (Nat.not_le.mpr h)

theorem exec_rxbufRead_of_ge {i : Byte} (h : rxSize ≤ i.toNat) (s : State) :
    exec (.rxbufRead i) s = .next { s with fault := some .badIndex } :=
  if_pos h

/-- A write to another address leaves the byte (the frame of `Buffer.read_write_same`). -/
theorem Buffer.read_write_of_ne (b : Buffer) {i a : Nat} (h : a ≠ i) (v : Byte) : (b.write i v).read a = b.read a := by
  rw [Buffer.read_write, if_neg h.symm]

/-- Settles O43: the last index of TXBUF is 126 and of RXBUF 127, and each command has one equation on either side. -/
theorem bufferCommandsAct : Obligations.BufferCommandsAct := by
  intro s i v
  refine ⟨fun h => ?within, fun h => ?past, fun h => exec_rxbufRead_of_lt (Nat.lt_succ_of_le h) s,
    fun h => exec_rxbufRead_of_ge h s, rfl, rfl, rfl⟩
  case within =>
    have hlt : i.toNat < txSize := Nat.lt_succ_of_le h
    exact ⟨⟨_, exec_txbufWrite_of_lt hlt v s, rfl, Buffer.read_write_same s.txBuf i.toNat v,
      fun _ ha => Buffer.read_write_of_ne s.txBuf ha v⟩, exec_txbufRead_of_lt hlt s⟩
  case past => exact ⟨exec_txbufWrite_of_ge h v s, exec_txbufRead_of_ge h s⟩

/-! ## The return from an upcall -/

theorem resume_of_frames {s : State} {f : Frame} {rest : List Frame} (h : s.frames = f :: rest) :
    resume s = { s with frames := { f with upcall := none } :: rest } := by
  simp only [resume, h]

theorem exec_upcallReturn_of_suspended {s : State} {f : Frame} {rest : List Frame} (h : s.frames = f :: rest)
    (hu : f.upcall ≠ none) :
    exec .upcallReturn s = .next { s with frames := { f with upcall := none } :: rest, result := some .unit } := by
  change execUpcallReturn s = _
  simp only [execUpcallReturn, h, Option.isSome_iff_ne_none.mpr hu, if_true, resume_of_frames h]

theorem exec_upcallReturn_of_not_suspended {s : State}
    (h : ∀ (f : Frame) (rest : List Frame), s.frames = f :: rest → f.upcall = none) :
    exec .upcallReturn s = .next { s with fault := some .noUpcall } := by
  change execUpcallReturn s = _
  cases hf : s.frames with
  | nil => simp only [execUpcallReturn, hf, raise_eq_next]
  | cons f rest => simp [execUpcallReturn, hf, h f rest hf, raise_eq_next]

/-- Settles O42: a top frame is suspended exactly when it holds an upcall record. -/
theorem upcallReturnResumes : Obligations.UpcallReturnResumes := fun _ =>
  ⟨fun _ _ => exec_upcallReturn_of_suspended, exec_upcallReturn_of_not_suspended, rfl⟩

end Sys2Proof.Machine
end

section
/-! The radio (41_radio.md): what SS1 of `set_state` decides in each row of its table (R164), the three queries (R166, R176,
R177), then the statements about them. -/

namespace Sys2Proof.Machine

/-! ## One status read of `set_state` -/

theorem targetClass_ne_busy (target : Target) : targetClass target ≠ .busy := by cases target <;> decide

theorem targetClass_ne_other (target : Target) : targetClass target ≠ .other := by cases target <;> decide

section
variable {s : State} {use : SetState} {target : Target}

theorem stepSS1_of_target (ht : setStateTarget use = target) (hc : statusClass s.cfg s.chip.regs.status = targetClass target) :
    stepSS1 use s = .next (goto (setStateNext use) s) :=
  if_pos (ht ▸ hc)

theorem stepSS1_of_busy (hc : statusClass s.cfg s.chip.regs.status = .busy) :
    stepSS1 use s = .next (goto (.ss1 use) s) := by
  simp only [stepSS1, hc, if_neg (targetClass_ne_busy _).symm]

theorem stepSS1_of_other (hc : statusClass s.cfg s.chip.regs.status = .other) :
    stepSS1 use s = .next (goto (.ss2 use .recover) s) := by
  simp only [stepSS1, hc, if_neg (targetClass_ne_other _).symm]

/-- From a chip that rests in a state other than the target, the target's own command is chosen. -/
theorem stepSS1_of_resting {c : StatusClass} (hc : statusClass s.cfg s.chip.regs.status = c)
    (hrest : c = .idle ∨ c = .listen ∨ c = .send) (ht : setStateTarget use = target) (hne : c ≠ targetClass target) :
    stepSS1 use s = .next (goto (.ss2 use (cmdFor target)) s) := by
  subst ht
  obtain rfl | rfl | rfl := hrest <;> simp only [stepSS1, hc, if_neg hne]

end

/-- Settles O20: each row of the table is one of the four decisions of SS1, and SS2 is its own equation. -/
theorem setStateFollowsTheTable : Obligations.SetStateFollowsTheTable := by
  intro s use cmd hu
  refine ⟨fun h => ?ss1, fun h => step_at hu h⟩
  case ss1 =>
    rw [step_at hu h]
    change stepSS1 use s = _
    cases hc : statusClass s.cfg s.chip.regs.status with
    | busy => exact stepSS1_of_busy hc
    | other => exact stepSS1_of_other hc
    | idle =>
      cases ht : setStateTarget use with
      | listen => exact stepSS1_of_resting hc (.inl rfl) ht (by decide)
      | send => exact stepSS1_of_resting hc (.inl rfl) ht (by decide)
    | listen =>
      cases ht : setStateTarget use with
      | listen => exact stepSS1_of_target ht hc
      | send => exact stepSS1_of_resting hc (.inr (.inl rfl)) ht (by decide)
    | send =>
      cases ht : setStateTarget use with
      | listen => exact stepSS1_of_resting hc (.inr (.inr rfl)) ht (by decide)
      | send => exact stepSS1_of_target ht hc

/-! ## The queries -/

/-- Settles O16: each query is issued behind the ready check and returns in its first micro-step, which leaves the stack as
it was. -/
theorem radioQueriesAnswer : Obligations.RadioQueriesAnswer := fun s =>
  ⟨issue_answers (execRadioGetTxPacket.eq_def s) rfl, issue_answers (execRadioIsPacketAvailable.eq_def s) rfl,
    issue_answers (execRadioGetRxPacket.eq_def s) rfl, rfl, rfl, rfl⟩

end Sys2Proof.Machine
end

section
/-! LINK (42_link.md): what a read returns beside the byte or field written, which received frames the filter accepts (R205,
R206), what step L2 leaves in TXBUF (R201 to R204), then the statements about them. -/

namespace Sys2Proof.Machine

/-! ## Reads beside a written field -/

theorem Buffer.read_putLE16_of_ne (b : Buffer) {off a : Nat} (h0 : a ≠ off) (h1 : a ≠ off + 1) (v : Half) :
    (b.putLE16 off v).read a = b.read a := by
  rw [Buffer.read_putLE16, if_neg h1.symm, if_neg h0.symm]

theorem Buffer.getLE16_write_of_ne (b : Buffer) {i off : Nat} (h0 : off ≠ i) (h1 : off + 1 ≠ i) (v : Byte) :
    (b.write i v).getLE16 off = b.getLE16 off := by
  simp only [Buffer.getLE16, Buffer.read_write_of_ne b h0, Buffer.read_write_of_ne b h1]

/-- Two fields that do not overlap are at least two bytes apart. -/
theorem Buffer.getLE16_putLE16_of_disjoint (b : Buffer) {i off : Nat} (h : off + 2 ≤ i ∨ i + 2 ≤ off) (v : Half) :
    (b.putLE16 i v).getLE16 off = b.getLE16 off := by
  simp only [Buffer.getLE16, Buffer.read_putLE16_of_ne b (show off ≠ i by omega) (by omega),
    Buffer.read_putLE16_of_ne b (show off + 1 ≠ i by omega) (by omega)]

/-! ## The settings and the queries -/

/-- Settles O27: LINK_INIT is exempt from the ready check, the other four stand behind it, and each returns in its first
micro-step, which leaves the stack as it was. -/
theorem linkSettingsAndQueries : Obligations.LinkSettingsAndQueries := fun s _ addr =>
  ⟨rfl, issue_answers (execLinkSetDst.eq_def addr s) rfl, issue_answers (execLinkGetSrc.eq_def s) rfl,
    issue_answers (execLinkGetTxPacket.eq_def s) rfl, issue_answers (execLinkIsPacketAvailable.eq_def s) rfl,
    rfl, rfl, rfl, rfl, rfl⟩

/-! ## The receive filter -/

theorem decodeFcRx_isSome_iff (fc : Half) : (decodeFcRx fc).isSome = true ↔ fc &&& fcMask = fcExpect := by
  simp [decodeFcRx, fcAccepted]

/-- The filter accepts a frame of at least header and trailer whose frame control shows the data pattern (R205). -/
theorem rxFilter_isSome_iff (s : State) : (rxFilter s).isSome = true ↔
    11 ≤ (s.rxBuf.read 0).toNat ∧ s.rxBuf.getLE16 1 &&& fcMask = fcExpect := by
  unfold rxFilter
  by_cases h : (s.rxBuf.read 0).toNat < linkHdr + linkTrl
  · have hshort : ¬ 11 ≤ (s.rxBuf.read 0).toNat := Nat.not_le.mpr h
    simp [h, hshort]
  · have hlong : 11 ≤ (s.rxBuf.read 0).toNat := Nat.not_lt.mp h
    rw [if_neg h, decodeFcRx_isSome_iff, and_iff_right hlong]

theorem stepLinkGet_of_accepted {s : State} (hw : s.rxWaiting = true) (hf : (rxFilter s).isSome = true) :
    stepLinkGet s = .next (finish (.rxPacket (some (rxLinkOff, rxPayloadSize s))) (acceptFrame s)) := by
  obtain ⟨i, hi⟩ := Option.isSome_iff_exists.mp hf
  simp only [stepLinkGet, hw, hi, cond_true]

theorem stepLinkGet_of_rejected {s : State} (h : ¬ (s.rxWaiting = true ∧ (rxFilter s).isSome = true)) :
    stepLinkGet s = .next (finish (.rxPacket none) s) := by
  unfold stepLinkGet
  cases hw : s.rxWaiting with
  | false => rfl
  | true =>
    cases hf : rxFilter s with
    | none => rfl
    | some i => exact absurd ⟨hw, by rw [hf]; rfl⟩ h

/-- Settles O28: the three conditions are a waiting frame and the filter's two, and each side is one equation of the first
micro-step, on a state with the new frame pushed. -/
theorem linkGetValidatesTheFrame : Obligations.LinkGetValidatesTheFrame := by
  intro s
  refine ⟨issue_answers (execLinkGetRxPacket.eq_def s) ?_, rfl⟩
  split_ifs with h
  · obtain ⟨hw, hf⟩ := h
    exact stepLinkGet_of_accepted (s := push _ s) hw ((rxFilter_isSome_iff s).mpr hf)
  · exact stepLinkGet_of_rejected (s := push _ s) fun ha => h (ha.imp_right (rxFilter_isSome_iff s).mp)

/-! ## Encapsulation -/

/-- L2 builds the frame and then lets the frame-control pattern's own instruction complete its header. -/
theorem step_l2 {s : State} {n : Nat} (hu : undisturbed s) (h : runningAt s = some (.l2 n)) :
    step s = .next (putFrameControl (fcTx s.cfg.fcVersion) (beforeFcTx n s)) :=
  step_at hu h

section
variable (s : State) (n : Nat)

/-- What L2 writes before the frame control: sequence number, addresses and trailer, at their places in the frame. -/
theorem beforeFcTx_txBuf : (beforeFcTx n s).txBuf =
    (((((s.txBuf.write 2 s.seq).putLE16 3 s.panId).putLE16 5 s.dstAddr).putLE16 7 s.localAddr).write (9 + n) 0).write
      (10 + n) 0 := by
  rw [show 10 + n = 9 + n + 1 by omega]
  rfl

theorem beforeFcTx_header :
    (beforeFcTx n s).txBuf.read 2 = s.seq ∧ (beforeFcTx n s).txBuf.getLE16 3 = s.panId ∧
    (beforeFcTx n s).txBuf.getLE16 5 = s.dstAddr ∧ (beforeFcTx n s).txBuf.getLE16 7 = s.localAddr := by
  rw [beforeFcTx_txBuf]
  refine ⟨?_, ?_, ?_, ?_⟩ <;>
    simp (disch := omega) only [Buffer.read_write_of_ne, Buffer.read_putLE16_of_ne, Buffer.getLE16_write_of_ne,
      Buffer.getLE16_putLE16_of_disjoint, Buffer.read_write_same, Buffer.getLE16_putLE16]

theorem beforeFcTx_trailer : (beforeFcTx n s).txBuf.read (9 + n) = 0 ∧ (beforeFcTx n s).txBuf.read (10 + n) = 0 := by
  rw [beforeFcTx_txBuf]
  constructor <;> simp (disch := omega) only [Buffer.read_write_of_ne, Buffer.read_write_same]

theorem beforeFcTx_read_of_ne {a : Nat} (h : 9 ≤ a) (h9 : a ≠ 9 + n) (h10 : a ≠ 10 + n) :
    (beforeFcTx n s).txBuf.read a = s.txBuf.read a := by
  rw [beforeFcTx_txBuf]
  simp (disch := omega) only [Buffer.read_write_of_ne, Buffer.read_putLE16_of_ne]

end

theorem putFrameControl_read_of_le (fc : Half) (s : State) {a : Nat} (h : 2 ≤ a) :
    (putFrameControl fc s).txBuf.read a = s.txBuf.read a :=
  Buffer.read_putLE16_of_ne _ (by omega) (by omega) fc

theorem putFrameControl_getLE16_of_le (fc : Half) (s : State) {off : Nat} (h : 2 ≤ off) :
    (putFrameControl fc s).txBuf.getLE16 off = s.txBuf.getLE16 off :=
  Buffer.getLE16_putLE16_of_disjoint _ (.inr h) fc

/-- Settles O29: the frame control is bytes 0 and 1, so the rest of the frame is what L2 wrote before it. -/
theorem linkEncapWritesHeaderAndTrailer : Obligations.LinkEncapWritesHeaderAndTrailer := by
  intro s n hu h
  obtain ⟨hseq, hpan, hdst, hloc⟩ := beforeFcTx_header s n
  obtain ⟨h9, h10⟩ := beforeFcTx_trailer s n
  exact ⟨_, step_l2 hu h, rfl, Buffer.getLE16_putLE16 .., (putFrameControl_read_of_le _ _ (by omega)).trans hseq,
    (putFrameControl_getLE16_of_le _ _ (by omega)).trans hpan, (putFrameControl_getLE16_of_le _ _ (by omega)).trans hdst,
    (putFrameControl_getLE16_of_le _ _ (by omega)).trans hloc, (putFrameControl_read_of_le _ _ (by omega)).trans h9,
    (putFrameControl_read_of_le _ _ (by omega)).trans h10, fun _ ha ha9 ha10 =>
      (putFrameControl_read_of_le _ _ (by omega)).trans (beforeFcTx_read_of_ne s n ha ha9 ha10)⟩

end Sys2Proof.Machine
end

section
/-! APP (43_protocol.md): the operand checks of R103 as bounds, what a registration and an APP_MAX_COUNT answer (R243, R248,
R258), the master's upcall (R150, R262), then the statements about them. -/

namespace Sys2Proof.Machine

/-! ## The operand checks -/

theorem presentOk_iff (b : Byte) : presentOk b = true ↔ b.toNat ≤ 1 := decide_eq_true_iff

/-- Bits 7:2 of a byte are its quotient by 4. -/
theorem flagsOk_iff (b : Byte) : flagsOk b = true ↔ b.toNat ≤ 3 := by
  have hb := b.isLt
  rw [flagsOk, beq_iff_eq, ← BitVec.toNat_inj, BitVec.extractLsb'_toNat, Nat.shiftRight_eq_div_pow, BitVec.toNat_ofNat]
  omega

/-! ## The registry -/

section
variable {ep flags : Byte}

theorem exec_appRegisterHandler_of_le (h : flags.toNat ≤ 3) (s : State) :
    exec (.appRegisterHandler ep flags) s =
      issue .app (.appRegisterHandler ep flags) (stepRegister (handlerOf ep flags)) s :=
  if_pos ((flagsOk_iff flags).mpr h)

theorem exec_appRegisterHandler_of_gt (h : 3 < flags.toNat) (s : State) :
    exec (.appRegisterHandler ep flags) s = .next { s with fault := some .badOperand } :=
  if_neg fun hok => Nat.not_le.mpr h ((flagsOk_iff flags).mp hok)

end

theorem stepRegister_of_full {s : State} (h : s.handlers.length = nHandlers s.cfg) (e : Handler) :
    stepRegister e s = .next (finish (.handler none) s) :=
  if_pos h

theorem stepRegister_of_room {s : State} (h : s.handlers.length ≠ nHandlers s.cfg) (e : Handler) :
    stepRegister e s =
      .next (finish (.handler (some s.handlers.length)) { s with handlers := s.handlers ++ [e] }) :=
  if_neg h

/-- Settles O34: legal flags are those up to 3, and line 1 of the registration has one equation for a full registry and one
for a registry with room, each on a state with the new frame pushed. -/
theorem registerAppendsOrAnswersNone : Obligations.RegisterAppendsOrAnswersNone := by
  intro s ep flags
  refine ⟨fun h => issue_answers (exec_appRegisterHandler_of_le h s) ?_, fun h => exec_appRegisterHandler_of_gt h s, rfl⟩
  split_ifs with hfull
  · exact stepRegister_of_full (s := push _ s) hfull _
  · exact stepRegister_of_room (s := push _ s) hfull _

/-! ## Record counts -/

theorem recSize_of_unimplemented {cmd : Byte} (h : ¬ (1 ≤ cmd.toNat ∧ cmd.toNat ≤ 4)) : recSize cmd = 0 := by
  unfold recSize; split <;> omega

theorem pairedCode_of_unimplemented {cmd : Byte} (h : ¬ (1 ≤ cmd.toNat ∧ cmd.toNat ≤ 4)) : pairedCode cmd = cmd := by
  unfold pairedCode
  split
  case h_5 => rfl
  all_goals omega

theorem maxCount_of_unimplemented {cmd : Byte} (h : ¬ (1 ≤ cmd.toNat ∧ cmd.toNat ≤ 4)) : maxCount cmd = 0 := by
  have hcap : capSize cmd = 0 := by
    rw [capSize, pairedCode_of_unimplemented h, recSize_of_unimplemented h, Nat.max_self]
  rw [maxCount, hcap, recordCount, if_pos (.inl rfl)]

/-- Each implemented code has the pair's record size on one side of its exchange (R242), so all four share one bound. -/
theorem maxCount_of_implemented {cmd : Byte} (h : 1 ≤ cmd.toNat ∧ cmd.toNat ≤ 4) : maxCount cmd = 19 := by
  obtain rfl | rfl | rfl | rfl : cmd = codeReadCmd ∨ cmd = codeReadAns ∨ cmd = codeWriteCmd ∨ cmd = codeWriteAns := by
    unfold codeReadCmd codeReadAns codeWriteCmd codeWriteAns; bv_omega
  all_goals decide

theorem maxCount_eq (cmd : Byte) : maxCount cmd = if 1 ≤ cmd.toNat ∧ cmd.toNat ≤ 4 then 19 else 0 := by
  split_ifs with h
  · exact maxCount_of_implemented h
  · exact maxCount_of_unimplemented h

/-- Settles O32: the byte answered is `maxCount`, which 19 and 0 fit in. -/
theorem maxCountIsNineteenOrZero : Obligations.MaxCountIsNineteenOrZero := by
  intro s cmd
  have hbyte : BitVec.ofNat 8 (maxCount cmd) = if 1 ≤ cmd.toNat ∧ cmd.toNat ≤ 4 then 19 else 0 := by
    rw [maxCount_eq]; split_ifs <;> rfl
  rw [← hbyte]
  exact ⟨issue_answers (execAppMaxCount.eq_def cmd s) rfl, rfl⟩

/-! ## The callback switches -/

section
variable {p : Byte}

theorem appSetReadAnsCb_answers (h : p.toNat ≤ 1) (s : State) :
    answersWhenReady .app (.appSetReadAnsCb p) s { s with cbReadAns := p == 1, result := some .unit } :=
  issue_answers (if_pos ((presentOk_iff p).mpr h)) rfl

theorem appSetWriteAnsCb_answers (h : p.toNat ≤ 1) (s : State) :
    answersWhenReady .app (.appSetWriteAnsCb p) s { s with cbWriteAns := p == 1, result := some .unit } :=
  issue_answers (if_pos ((presentOk_iff p).mpr h)) rfl

theorem exec_appSetReadAnsCb_of_gt (h : 1 < p.toNat) (s : State) :
    exec (.appSetReadAnsCb p) s = .next { s with fault := some .badOperand } :=
  if_neg fun hok => Nat.not_le.mpr h ((presentOk_iff p).mp hok)

theorem exec_appSetWriteAnsCb_of_gt (h : 1 < p.toNat) (s : State) :
    exec (.appSetWriteAnsCb p) s = .next { s with fault := some .badOperand } :=
  if_neg fun hok => Nat.not_le.mpr h ((presentOk_iff p).mp hok)

end

/-- Settles O33: APP_INIT is exempt from the ready check, the other four stand behind it, a switch also behind its operand
check, and each returns in its first micro-step. -/
theorem appSettingsAndQueries : Obligations.AppSettingsAndQueries := fun s =>
  ⟨rfl, issue_answers (execAppGetReadBuf.eq_def s) rfl, issue_answers (execAppGetWriteBuf.eq_def s) rfl,
    appSetReadAnsCb_answers (by decide) s, appSetReadAnsCb_answers (by decide) s,
    appSetWriteAnsCb_answers (by decide) s, appSetWriteAnsCb_answers (by decide) s, rfl, rfl, rfl, fun _ =>
      ⟨fun h => ⟨exec_appSetReadAnsCb_of_gt h s, exec_appSetWriteAnsCb_of_gt h s⟩, rfl, rfl⟩⟩

/-! ## The master's upcall -/

theorem suspend_of_frames {s : State} {f : Frame} {rest : List Frame} (h : s.frames = f :: rest) (u : Upcall) (pc : Pc) :
    suspend u pc s = { s with frames := { f with pc := pc, upcall := some u } :: rest } := by
  simp only [suspend, h]

/-- U4 is one upcall that resumes at the dismiss (R262). -/
theorem step_u4 {s : State} {u : Upcall} (hu : undisturbed s) (h : runningAt s = some (.u4 u)) :
    step s = upcall u .d1 s s :=
  step_at hu h

/-- Settles O40: an answer is routed by its callback's flag alone, and at U4 the upcall is presented or the stack is full. -/
theorem masterRoutingFollowsTheRule : Obligations.MasterRoutingFollowsTheRule := by
  intro s ep
  refine ⟨fun _ => rfl, fun _ => rfl, fun f rest u hu hframes hrun hpc => ?_⟩
  have hat : runningAt s = some (.u4 u) := runningAt_eq_some.mpr ⟨f, rest, hframes, hrun, hpc⟩
  rw [step_u4 hu hat]
  exact ⟨upcall_of_full, fun hroom => by rw [upcall_of_room hroom, suspend_of_frames hframes]⟩

end Sys2Proof.Machine
end

section
/-! The values a new run starts from: the flags, the counter and the stack, and the two buffers before any write. -/

namespace Sys2Proof.Machine

/-! ## Buffers at the start of a run -/

@[simp] theorem Memory.get?_nil (a : Nat) : Memory.get? [] a = none := rfl

section
variable (chip : Chip) (clock : Nat) (cfg : Params) (sched : List Event) (draws : Nat)

/-- A new run has no cell: each later read of an unwritten byte answers its buffer's draw (R331). -/
@[simp] theorem State.newRun_txBuf_cells : (State.newRun chip clock cfg sched draws).txBuf.cells = [] := rfl
@[simp] theorem State.newRun_rxBuf_cells : (State.newRun chip clock cfg sched draws).rxBuf.cells = [] := rfl

theorem State.newRun_buffers_undefined (a : Nat) :
    Memory.get? (State.newRun chip clock cfg sched draws).txBuf.cells a = none ∧
    Memory.get? (State.newRun chip clock cfg sched draws).rxBuf.cells a = none := by
  simp only [newRun_txBuf_cells, newRun_rxBuf_cells, Memory.get?_nil, and_self]

end

/-! ## The state after reset -/

/-- Settles O14: the reset state is a new run, so each field R331 names has the value written there and neither buffer has
a cell. -/
theorem resetLeavesSpecValues : Obligations.ResetLeavesSpecValues :=
  ⟨rfl, rfl, rfl, rfl, rfl, rfl, rfl, rfl, rfl, rfl, rfl, rfl, State.newRun_buffers_undefined _ _ _ _ _⟩

end Sys2Proof.Machine
end

section
/-! The decoders and the encoder (30_encoding.md) undo each other: operand bytes and opcodes of the host port (R100 to R104),
then application frames (R112 to R115, R245) and frame-control fields (R108 to R111), then the statements about them. -/

namespace Sys2Proof

/-! ## Host commands -/

section
variable {bytes rest : List Byte} {i : Instr}

theorem operand1_eq_ok_iff {f : Byte → Instr} :
    operand1 f bytes = .ok i rest ↔ ∃ a, bytes = a :: rest ∧ f a = i := by
  cases bytes <;> simp [operand1, and_comm]

theorem operand2_eq_ok_iff {f : Byte → Byte → Instr} :
    operand2 f bytes = .ok i rest ↔ ∃ a b, bytes = a :: b :: rest ∧ f a b = i := by
  unfold operand2
  split <;> simp_all [and_comm]

theorem operand4_eq_ok_iff {f : Byte → Byte → Byte → Byte → Instr} :
    operand4 f bytes = .ok i rest ↔ ∃ a b c d, bytes = a :: b :: c :: d :: rest ∧ f a b c d = i := by
  unfold operand4
  split <;> simp_all [and_comm]

theorem checkOperands_eq_ok_iff {d : HostDecode} :
    checkOperands d = .ok i rest ↔ d = .ok i rest ∧ i.wf = true := by
  cases d with
  | ok j r =>
    simp only [checkOperands]
    split_ifs with hw
    · exact ⟨fun h => ⟨h, by cases h; exact hw⟩, And.left⟩
    · exact ⟨nofun, fun ⟨h, hi⟩ => by cases h; exact absurd hi hw⟩
  | illegalOpcode | badOperand | incomplete => simp [checkOperands]

theorem decodeHost_cons_eq_ok_iff {opcode : Byte} {args : List Byte} :
    decodeHost (opcode :: args) = .ok i rest ↔ decodeOpcode opcode args = .ok i rest ∧ i.wf = true :=
  checkOperands_eq_ok_iff

end

/-- The operand bytes the opcode map takes are those the encoder writes behind that opcode (R101). -/
theorem decodeOpcode_bytes {opcode : Byte} {args rest : List Byte} {i : Instr}
    (h : decodeOpcode opcode args = .ok i rest) : opcode :: args = encode i ++ rest := by
  have hop : ∀ {n : Nat}, opcode.toNat = n → opcode = BitVec.ofNat 8 n := by rintro _ rfl; simp
  unfold decodeOpcode at h
  split at h
  case h_31 => cases h
  case h_3 | h_11 | h_16 | h_17 | h_20 | h_24 | h_25 | h_28 | h_29 =>
    obtain ⟨a, rfl, rfl⟩ := operand1_eq_ok_iff.mp h
    rw [hop ‹_›]; rfl
  case h_8 | h_21 | h_22 | h_23 | h_27 =>
    obtain ⟨a, b, rfl, rfl⟩ := operand2_eq_ok_iff.mp h
    simp only [hop ‹_›, encode, bytes16_le16, List.cons_append, List.nil_append]
  case h_7 =>
    obtain ⟨a, b, c, d, rfl, rfl⟩ := operand4_eq_ok_iff.mp h
    simp only [hop ‹_›, encode, bytes16_le16, List.cons_append, List.nil_append]
  all_goals cases h; rw [hop ‹_›]; rfl

/-- The opcode map reads back the bytes the encoder writes. -/
theorem decodeHost_encode {i : Instr} (rest : List Byte) (hs : i.source = .host) (hw : i.wf = true) :
    decodeHost (encode i ++ rest) = .ok i rest := by
  cases i
  case readCmd | readAns | writeCmd | writeAns | listCmd | listAns | findCmd | findAns | linkFcTx | linkFcFilter =>
    cases hs
  case linkInit | linkSetDst =>
    refine decodeHost_cons_eq_ok_iff.mpr ⟨?_, hw⟩
    simp [decodeOpcode, operand4, operand2, bytes16]
  all_goals exact decodeHost_cons_eq_ok_iff.mpr ⟨rfl, hw⟩

/-- Settles O2: every command's bytes are its opcode and operands, and its well-formedness is the decoder's own check. -/
theorem hostCommandsRoundTrip : Obligations.HostCommandsRoundTrip := fun _ rest => decodeHost_encode rest

/-! ## Application frames -/

theorem sizeOk_pos {count size : Nat} (h : sizeOk count size = true) : 1 ≤ count := (of_decide_eq_true h).1

theorem addrBytes_ne_nil {rs : List Half} (h : 1 ≤ rs.length) : addrBytes rs ≠ [] := by
  cases rs with
  | nil => cases h
  | cons r rs => simp [addrBytes, bytes16]

theorem pairBytes_ne_nil {rs : List PairRec} (h : 1 ≤ rs.length) : pairBytes rs ≠ [] := by
  cases rs with
  | nil => cases h
  | cons r rs => simp [pairBytes, bytes16]

/-- A well-formed application frame has a record or a payload byte, so it is longer than its header (R245). -/
theorem decodeApp_encode {i : Instr} (hs : i.source = .app) (hw : i.wf = true) : decodeApp (encode i) = some i := by
  cases i
  case readCmd ep rs | writeAns ep rs =>
    rw [encode, decodeApp_cons _ _ _ (addrBytes_ne_nil (sizeOk_pos hw))]
    simp [decodeRecords, addrRecords_bytes]
  case readAns ep rs | writeCmd ep rs =>
    rw [encode, decodeApp_cons _ _ _ (pairBytes_ne_nil (sizeOk_pos hw))]
    simp [decodeRecords, pairRecords_bytes]
  case listCmd ep bs | listAns ep bs | findCmd ep bs | findAns ep bs =>
    rw [encode, decodeApp_cons _ _ _ (List.ne_nil_of_length_pos (sizeOk_pos hw))]
    rfl
  all_goals cases hs

/-- A code's records are the bytes behind the header of the frame decoded (R114). -/
theorem decodeRecords_bytes {cmd ep : Byte} {payload : List Byte} {i : Instr} (h : decodeRecords cmd ep payload = some i) :
    encode i = cmd :: ep :: payload := by
  have hcmd : ∀ {n : Nat}, cmd.toNat = n → cmd = BitVec.ofNat 8 n := by rintro _ rfl; simp
  unfold decodeRecords at h
  split at h
  case h_1 | h_4 =>
    obtain ⟨rs, hrs, rfl⟩ := Option.map_eq_some_iff.mp h
    rw [addrBytes_records hrs, hcmd ‹_›]; rfl
  case h_2 | h_3 =>
    obtain ⟨rs, hrs, rfl⟩ := Option.map_eq_some_iff.mp h
    rw [pairBytes_records hrs, hcmd ‹_›]; rfl
  case h_9 => cases h
  all_goals cases h; rw [hcmd ‹_›]; rfl

theorem decodeApp_bytes {bytes : List Byte} {i : Instr} (h : decodeApp bytes = some i) :
    bytes = encode i ∧ 2 < bytes.length := by
  unfold decodeApp at h
  split at h
  · exact ⟨(decodeRecords_bytes h).symm, by simp⟩
  · cases h

/-- Settles O4: a decoder's answer fixes the opcode or code byte, and each operand form and record array fixes the bytes
behind it. -/
theorem decodedInstructionIsItsEncoding : Obligations.DecodedInstructionIsItsEncoding := by
  refine ⟨fun bytes rest i h => ⟨decodeHost_source h, ?_⟩, fun bytes i h => ⟨decodeApp_source h, decodeApp_bytes h⟩⟩
  cases bytes with
  | nil => cases h
  | cons opcode args =>
    obtain ⟨hd, hw⟩ := decodeHost_cons_eq_ok_iff.mp h
    exact ⟨hw, decodeOpcode_bytes hd⟩

/-! ## Frame-control fields -/

theorem decodeFcTx_fcTx : ∀ v : BitVec 2, decodeFcTx (fcTx v) = some (.linkFcTx v) := by decide

theorem decodeFcRx_fcFields : ∀ (p a : Bool) (r : BitVec 3) (v : BitVec 2),
    decodeFcRx (fcFields p a r v) = some (.linkFcFilter p a r v) := by decide

theorem decodeFcField_bytes16 (f : Half → Option Instr) (fc : Half) : decodeFcField f (bytes16 fc) = f fc := by
  simp [decodeFcField, bytes16]

/-- Settles O3: each frame is read by the decoder of its own source, and both frame-control patterns are read from the
field that was split into two bytes. -/
theorem wireFormatsRoundTrip : Obligations.WireFormatsRoundTrip := by
  intro i hs hw
  cases hsrc : i.source with
  | host => exact absurd hsrc hs
  | app => exact decodeApp_encode hsrc hw
  | fcTx =>
    cases i <;> cases hsrc
    exact (decodeFcField_bytes16 ..).trans (decodeFcTx_fcTx _)
  | fcRx =>
    cases i <;> cases hsrc
    exact (decodeFcField_bytes16 ..).trans (decodeFcRx_fcFields ..)

/-- Settles O5: compared bit by bit, the masked value says of bits 0 to 3, 6, 10, 11, 14 and 15 what the five fields say. -/
theorem filterAcceptsExactlyTheDataPattern : Obligations.FilterAcceptsExactlyTheDataPattern := by
  intro fc
  rw [fcAccepted, beq_iff_eq]
  simp only [BitVec.eq_of_getLsbD_eq_iff, fcMask, fcExpect, BitVec.getLsbD_and, BitVec.getLsbD_extractLsb',
    Nat.forall_lt_succ_right, Nat.not_lt_zero, false_imp_iff, implies_true, true_and, BitVec.getLsbD_ofNat]
  simp [Nat.testBit, and_assoc]

/-- Settles O1: each word is one evaluation of its decoder. -/
theorem sampleWordsDecode : Obligations.SampleWordsDecode := by
  refine ⟨rfl, rfl, rfl, rfl, rfl, rfl, rfl, rfl, rfl, rfl, rfl⟩

/-- Settles O6: there are four versions. -/
theorem transmittedPatternPassesFilter : Obligations.TransmittedPatternPassesFilter := by
  unfold Obligations.TransmittedPatternPassesFilter; decide

end Sys2Proof
end

section
/-! What a step can do, said once over every agent: the moves that leave the block alone, the ISR's three, a micro-step, the
host port's two, a reset event. Then the invariants of R31, R44, R46, R79, R161 and R180, each kept by every step. -/

namespace Sys2Proof.Machine

/-! ## The effects of a step -/

/-- Everything a step but a reset event can do. The events left are among those that were coming. -/
inductive StepEffect (s : State) : State → Prop
  /-- The chip, the clock or the host moves, the ISR finds nothing or is masked, or the block waits for its host. -/
  | agent (rest : List Event) (chip : Chip) (clock : Nat) (port : List Byte) (hrest : rest ⊆ s.sched)
      (hbuf : chip.buffer = s.chip.buffer ∨
        ∃ len bytes, chip.buffer = .received len bytes ∧ .chip (.receive len bytes) ∈ s.sched) :
      StepEffect s { s with sched := rest, chip := chip, clock := clock, port := port }
  | isrQueue (rest : List Event) (chip : Chip) (hs : s.sched = .isr :: rest) (hen : s.irqEn = true)
      (hw : s.rxWaiting = true) (hbuf : chip.buffer = s.chip.buffer) :
      StepEffect s { s with sched := rest, chip := chip, rxQueued := true }
  | isrPull (rest : List Event) (chip : Chip) (len : Byte) (bytes : List Byte) (draw draws : Nat)
      (hs : s.sched = .isr :: rest) (hw : s.rxWaiting = false) (hbuf : chip.buffer = .empty)
      (hlen : bytes.length ≤ radioMtu) :
      StepEffect s { s with
        sched := rest, chip := chip, rxBuf := Buffer.ofFrame len bytes draw, draws := draws, rxWaiting := true }
  | isrLong (rest : List Event) (chip : Chip) (draws : Nat) (hs : s.sched = .isr :: rest)
      (hlong : ¬ heldFrameOk s.chip.buffer) :
      StepEffect s { s with sched := rest, chip := chip, draws := draws, fault := some .chipLength }
  | micro (rest : List Event) (hrest : rest ⊆ s.sched) (pc : Pc) (t : State) (hr : runningAt s = some pc)
      (h : MicroEffect (popEvent rest s) pc t) : StepEffect s t
  | badCommand (rest : List Event) (hrest : rest ⊆ s.sched) (port : List Byte) (r : Fault)
      (hr : r = .illegalOpcode ∨ r = .badOperand) : StepEffect s { popEvent rest s with port := port, fault := some r }
  | command (rest : List Event) (hrest : rest ⊆ s.sched) (i : Instr) (port : List Byte) (t : State)
      (hm : hostMayIssue s = true) (hr : runningAt s = none) (hd : decodeHost s.port = .ok i port)
      (h : CommandEffect { popEvent rest s with port := port, result := none } i t) : StepEffect s t

/-- The chip after one of its own moves (R80). -/
def chipAfter (chip : Chip) : ChipMove → Chip
  | .status code => { chip with regs := { chip.regs with status := code } }
  | .irqStatus bits => { chip with regs := { chip.regs with irqStatus := bits } }
  | .irqLine level => { chip with regs := { chip.regs with irqLine := level } }
  | .trac code => { chip with regs := { chip.regs with trac := code } }
  | .receive len bytes => { chip with buffer := .received len bytes }

theorem chipMove_eq (m : ChipMove) (s : State) : chipMove m s = { s with chip := chipAfter s.chip m } := by
  cases m <;> rfl

theorem chipAfter_buffer_cases (chip : Chip) (m : ChipMove) : (chipAfter chip m).buffer = chip.buffer ∨
    ∃ len bytes, (chipAfter chip m).buffer = .received len bytes ∧ m = .receive len bytes := by
  cases m with
  | receive len bytes => exact .inr ⟨len, bytes, rfl, rfl⟩
  | status | irqStatus | irqLine | trac => exact .inl rfl

/-- The ISR after its pull, field by field. -/
theorem isr_loaded_eq (s : State) (len : Byte) (bytes : List Byte) :
    { loadRx len bytes (chipReleaseFrame (clearIrqStatus s)) with rxWaiting := true } =
      { s with
        chip := { s.chip with regs := { s.chip.regs with irqStatus := 0, irqLine := false }, buffer := .empty }
        draws := s.draws + 2, rxBuf := Buffer.ofFrame len bytes (s.draws + 1), rxWaiting := true } := by
  simp

theorem stepEffect_of_ownStep {s t : State} {rest : List Event} (hrest : rest ⊆ s.sched)
    (h : ownStep (popEvent rest s) t) : StepEffect s t := by
  rcases ownStep_effects h with
    ⟨pc, hr, hmicro⟩ | ⟨hm, hr, rfl | ⟨port, r, rfl, hr'⟩ | ⟨i, port, hd, hcmd⟩⟩
  · exact .micro rest hrest pc t hr hmicro
  · exact .agent rest _ _ _ hrest (.inl rfl)
  · exact .badCommand rest hrest port r hr'
  · exact .command rest hrest i port t hm hr hd hcmd

/-- A step that answers a next state is a reset event, or one of the effects of a run that has not ended. -/
theorem step_effects {s t : State} (h : step s = .next t) :
    (∃ rest, s.sched = .reset :: rest ∧ t = resetEvent (popEvent rest s)) ∨ s.fault = none ∧ StepEffect s t := by
  refine (step_cases h).imp_right fun ⟨hlive, hmove⟩ => ⟨hlive, ?_⟩
  rcases hmove with ⟨rest, hs, hen, hisr⟩ | ⟨rest, hs, _, rfl⟩ | ⟨m, rest, hs, rfl⟩ | ⟨ms, rest, hs, rfl⟩ |
    ⟨bytes, rest, hs, rfl⟩ | ⟨hs, hown⟩ | ⟨rest, hs, hown⟩
  · have hrest : rest ⊆ s.sched := hs ▸ List.subset_cons_self ..
    rcases isr_cases hisr with rfl | ⟨rfl, hw⟩ | ⟨hw, hpull⟩
    · exact .agent rest _ _ _ hrest (.inl rfl)
    · exact .isrQueue rest _ hs hen hw rfl
    · rcases pullFrame_cases hpull with ⟨rfl, hlen⟩ | ⟨rfl, hlen⟩
      · exact .isrLong rest _ _ hs fun hheld => Nat.not_le.mpr hlen (chipFrame_len_le hheld)
      · rw [isr_loaded_eq]
        exact .isrPull rest _ _ _ _ _ hs hw rfl (by rw [chipFrame_length]; exact hlen)
  · exact .agent rest _ _ _ (hs ▸ List.subset_cons_self ..) (.inl rfl)
  · rw [chipMove_eq]
    refine .agent rest _ _ _ (hs ▸ List.subset_cons_self ..) ((chipAfter_buffer_cases s.chip m).imp_right ?_)
    rintro ⟨len, bytes, hb, rfl⟩
    exact ⟨len, bytes, hb, hs ▸ List.mem_cons_self ..⟩
  · exact .agent rest _ _ _ (hs ▸ List.subset_cons_self ..) (.inl rfl)
  · exact .agent rest _ _ _ (hs ▸ List.subset_cons_self ..) (.inl rfl)
  · exact stepEffect_of_ownStep (rest := s.sched) (List.Subset.refl _) hown
  · exact stepEffect_of_ownStep (hs ▸ List.subset_cons_self ..) hown

/-! ## What becomes of the stack -/

/-- What a micro-step at `pc` does to the stack: nothing, or the running frame moves on with a size still in bounds,
returns, or is suspended in an upcall. -/
inductive StackMove (s : State) (pc : Pc) (t : State) : Prop
  | kept (h : t.frames = s.frames)
  | moved (pc' : Pc) (h : t.frames = (goto pc' s).frames) (hsize : sizesOk pc → sizesOk pc')
  | returned (h : t.frames = s.frames.tail)
  | suspended (u : Upcall) (pc' : Pc) (h : t.frames = (suspend u pc' s).frames) (hpc : resumesAt pc' = true)
      (hroom : outstanding s ≠ maxUpcallDepth s.cfg)

theorem sizesOk_setStateNext {use : SetState} (h : sizesOk (.ss1 use)) : sizesOk (setStateNext use) := by
  cases use <;> exact h

theorem sizesOk_ss2_iff {use : SetState} {c : ChipCmd} : sizesOk (.ss2 use c) ↔ sizesOk (.ss1 use) := by
  cases use <;> exact Iff.rfl

theorem sizesOk_of_resumesAt {pc : Pc} (h : resumesAt pc = true) : sizesOk pc := by
  cases pc <;> trivial

theorem MicroEffect.stackMove {s t : State} {pc : Pc} (h : MicroEffect s pc t) : StackMove s pc t := by
  cases h
  case start | d3Long | u4Full | sd1Full => exact .kept rfl
  case i4 | t1Refuse | t12 | d2 | d3 | l1Refuse => exact .returned rfl
  case u4 h | sd1Call h => exact .suspended _ _ rfl rfl h
  case ss1Done use => exact .moved _ rfl sizesOk_setStateNext
  case ss1Command use c => exact .moved _ rfl sizesOk_ss2_iff.mpr
  case ss2 use c => exact .moved _ rfl sizesOk_ss2_iff.mp
  case t1 h | l1 h => exact .moved _ rfl fun _ => h
  case ss1Spin | t3 => exact .moved _ rfl id
  case u2Accept pc' _ hp =>
    refine .moved pc' rfl fun _ => ?_
    obtain rfl | ⟨u, rfl⟩ | ⟨k, ep, n, rfl⟩ := hp <;> trivial
  all_goals exact .moved _ rfl fun _ => trivial

theorem MicroEffect.cfg_eq {s t : State} {pc : Pc} (h : MicroEffect s pc t) : t.cfg = s.cfg := by
  cases h <;> rfl

theorem CommandEffect.cfg_eq {s t : State} {i : Instr} (h : CommandEffect s i t) : t.cfg = s.cfg := by
  cases h <;> rfl

/-- What a host command does to the stack: nothing, or its own frame is pushed, or the suspended top frame resumes. -/
inductive StackIssue (s t : State) : Prop
  | kept (h : t.frames = s.frames)
  | pushed (op : Instr) (pc : Pc) (h : t.frames = ⟨op, pc, none⟩ :: s.frames)
  | resumed (f : Frame) (rest : List Frame) (hf : s.frames = f :: rest) (hu : f.upcall.isSome = true)
      (h : t.frames = { f with upcall := none } :: rest)

theorem CommandEffect.stackIssue {s t : State} {i : Instr} (h : CommandEffect s i t) : StackIssue s t := by
  cases h
  case radioInit | radioSend | dismiss | linkSend | appSend | update => exact .pushed _ _ rfl
  case upcallReturn f rest hf hu => exact .resumed f rest hf hu (by simp [resume_of_frames hf])
  all_goals exact .kept rfl

theorem tail_suspended_of_mayIssue {s : State} (hm : hostMayIssue s = true)
    (h : ∀ f ∈ s.frames.tail, f.upcall.isSome = true) : ∀ f ∈ s.frames, f.upcall.isSome = true := by
  unfold hostMayIssue at hm
  cases hf : s.frames with
  | nil => exact fun _ hg => absurd hg List.not_mem_nil
  | cons f rest => rw [hf] at hm h; exact List.forall_mem_cons.mpr ⟨hm, h⟩

theorem outstanding_cons {s : State} {f : Frame} {rest : List Frame} (h : s.frames = f :: rest) :
    outstanding s = rest.countP (·.upcall.isSome) + if f.upcall.isSome then 1 else 0 := by
  rw [outstanding, h, List.countP_cons]

theorem stackOk_of_idle {s : State} (h : s.frames = []) : stackOk s := by
  simp [stackOk, outstanding, h]

theorem stackOk_of_stackMove {s t : State} {pc : Pc} (hr : runningAt s = some pc) (hcfg : t.cfg = s.cfg)
    (hmove : StackMove s pc t) (h : stackOk s) : stackOk t := by
  obtain ⟨f, rest, hf, hu, -⟩ := runningAt_eq_some.mp hr
  obtain ⟨htail, hres, hout⟩ := h
  rw [hf] at htail hres
  have hcount : outstanding s = rest.countP (·.upcall.isSome) := by rw [outstanding_cons hf, hu]; rfl
  have hrest : ∀ g ∈ rest, g.upcall.isSome = true → resumesAt g.pc = true := fun g hg =>
    hres g (List.mem_cons_of_mem _ hg)
  rw [hcount] at hout
  cases hmove with
  | kept ht => exact (stackOk_congr ht hcfg).mpr ⟨hf ▸ htail, hf ▸ hres, hcount ▸ hout⟩
  | moved pc' ht _ =>
    rw [goto_frames_cons s pc' f rest hf] at ht
    refine ⟨ht ▸ htail, ht ▸ List.forall_mem_cons.mpr ⟨fun h => by simp [hu] at h, hrest⟩, ?_⟩
    rw [outstanding_cons ht, hcfg]; simpa [hu] using hout
  | returned ht =>
    rw [hf, List.tail_cons] at ht
    refine ⟨fun g hg => htail g (List.mem_of_mem_tail (ht ▸ hg)), ht ▸ hrest, ?_⟩
    rw [outstanding, ht, hcfg]; exact hout
  | suspended u pc' ht hpc hroom =>
    rw [suspend_of_frames hf] at ht
    refine ⟨ht ▸ htail, ht ▸ List.forall_mem_cons.mpr ⟨fun _ => hpc, hrest⟩, ?_⟩
    rw [hcount] at hroom
    rw [outstanding_cons ht, hcfg]
    simp only [Option.isSome_some, if_true]
    omega

theorem stackOk_of_stackIssue {s t : State} (hm : hostMayIssue s = true) (hcfg : t.cfg = s.cfg)
    (hissue : StackIssue s t) (h : stackOk s) : stackOk t := by
  obtain ⟨htail, hres, hout⟩ := h
  have hall := tail_suspended_of_mayIssue hm htail
  cases hissue with
  | kept ht => exact (stackOk_congr ht hcfg).mpr ⟨htail, hres, hout⟩
  | pushed op pc ht =>
    refine ⟨ht ▸ hall, ht ▸ List.forall_mem_cons.mpr ⟨nofun, hres⟩, ?_⟩
    rw [outstanding_cons ht, hcfg]; exact hout
  | resumed f rest hf hu ht =>
    rw [hf] at htail hres
    have hrest := (List.forall_mem_cons.mp hres).2
    refine ⟨ht ▸ htail, ht ▸ List.forall_mem_cons.mpr ⟨nofun, hrest⟩, ?_⟩
    rw [outstanding_cons hf] at hout
    rw [outstanding_cons ht, hcfg]
    exact le_trans (Nat.add_le_add_left (Nat.zero_le _) _) hout

/-- Settles O46: only a running frame moves, returns or is suspended, and a command meets a stack whose frames are all
suspended. -/
theorem stepKeepsStackDiscipline : Obligations.StepKeepsStackDiscipline := by
  intro s t h hstep
  rcases step_effects hstep with ⟨rest, hs, rfl⟩ | ⟨hlive, heff⟩
  · exact stackOk_of_idle rfl
  cases heff with
  | micro rest hrest pc _ hr hmicro =>
    exact stackOk_of_stackMove (s := popEvent rest s) hr hmicro.cfg_eq hmicro.stackMove h
  | command rest hrest i port _ hm hr hd hcmd =>
    exact stackOk_of_stackIssue (s := { popEvent rest s with port := port, result := none }) hm hcmd.cfg_eq
      hcmd.stackIssue h
  | agent | isrQueue | isrPull | isrLong | badCommand => exact h

/-! ## Buffers and sizes (R70, R71, R168, R218) -/

/-- TXBUF stays canonical: L2 and A2 write inside it, the end of a send leaves it undefined. -/
theorem MicroEffect.txBuf_wf {s t : State} {pc : Pc} (h : MicroEffect s pc t) (hpc : sizesOk pc)
    (hw : Memory.wf txSize s.txBuf.cells) : Memory.wf txSize t.txBuf.cells := by
  cases h
  case t12 => exact Memory.wf_nil _
  case l2 n =>
    have hn : n ≤ 116 := hpc
    rw [putFrameControl_txBuf, beforeFcTx_txBuf]
    have hin : ∀ {a : Nat}, a ≤ 126 → a < txSize := Nat.lt_succ_of_le
    have hbody : Memory.wf txSize (s.txBuf.write 2 s.seq |>.putLE16 3 s.panId |>.putLE16 5 s.dstAddr |>.putLE16 7
        s.localAddr).cells :=
      Buffer.wf_putLE16 (Buffer.wf_putLE16 (Buffer.wf_putLE16 (Buffer.wf_write hw (by decide) _) (by decide) _)
        (by decide) _) (by decide) _
    exact Buffer.wf_putLE16 (Buffer.wf_write (Buffer.wf_write hbody (hin (by omega)) _) (hin (by omega)) _) (by decide) _
  case a2 => exact Buffer.wf_write (Buffer.wf_write hw (by decide) _) (by decide) _
  all_goals exact hw

theorem MicroEffect.rxBuf_wf {s t : State} {pc : Pc} (h : MicroEffect s pc t)
    (hw : Memory.wf rxSize s.rxBuf.cells) : Memory.wf rxSize t.rxBuf.cells := by
  cases h
  case d3 hlen => exact Buffer.wf_ofFrame (by rw [chipFrame_length]; exact Nat.lt_succ_of_le hlen)
  all_goals exact hw

theorem mem_goto_frames {s : State} {pc : Pc} {f : Frame} (h : f ∈ (goto pc s).frames) : f.pc = pc ∨ f ∈ s.frames := by
  cases hs : s.frames with
  | nil => rw [goto_frames_nil s pc hs] at h; exact absurd h List.not_mem_nil
  | cons g rest =>
    rw [goto_frames_cons s pc g rest hs] at h
    exact (List.mem_cons.mp h).imp (fun h => by rw [h]) (List.mem_cons_of_mem g)

theorem mem_suspend_frames {s : State} {u : Upcall} {pc : Pc} {f : Frame} (h : f ∈ (suspend u pc s).frames) :
    f.pc = pc ∨ f ∈ s.frames := by
  cases hs : s.frames with
  | nil => simp only [suspend, hs, List.not_mem_nil] at h
  | cons g rest =>
    rw [suspend_of_frames hs] at h
    exact (List.mem_cons.mp h).imp (fun h => by rw [h]) (List.mem_cons_of_mem g)

/-- The running operation's sizes stay in bounds, and no other frame is touched. -/
theorem sizesOk_of_stackMove {s t : State} {pc : Pc} (hmove : StackMove s pc t) (hpc : sizesOk pc)
    (h : ∀ f ∈ s.frames, sizesOk f.pc) : ∀ f ∈ t.frames, sizesOk f.pc := by
  intro f hf
  cases hmove with
  | kept ht => exact h f (ht ▸ hf)
  | returned ht => exact h f (List.mem_of_mem_tail (ht ▸ hf))
  | moved pc' ht hsize =>
    rcases mem_goto_frames (ht ▸ hf) with hnew | hold
    · exact hnew ▸ hsize hpc
    · exact h f hold
  | suspended u pc' ht hres =>
    rcases mem_suspend_frames (ht ▸ hf) with hnew | hold
    · exact hnew ▸ sizesOk_of_resumesAt hres
    · exact h f hold

theorem memoryOk_of_micro {s t : State} {pc : Pc} (hr : runningAt s = some pc) (hmicro : MicroEffect s pc t)
    (h : memoryOk s) : memoryOk t := by
  obtain ⟨htx, hrx, hsize⟩ := h
  obtain ⟨f, rest, hf, -, rfl⟩ := runningAt_eq_some.mp hr
  have hpc : sizesOk f.pc := hsize f (hf ▸ List.mem_cons_self ..)
  exact ⟨hmicro.txBuf_wf hpc htx, hmicro.rxBuf_wf hrx, sizesOk_of_stackMove hmicro.stackMove hpc hsize⟩

theorem memoryOk_of_command {s t : State} {i : Instr} (hcmd : CommandEffect s i t) (h : memoryOk s) : memoryOk t := by
  obtain ⟨htx, hrx, hsize⟩ := h
  cases hcmd
  case txWrite a v ha => exact ⟨Buffer.wf_write htx ha v, hrx, hsize⟩
  case upcallReturn f rest hf _ =>
    obtain ⟨hpc, hrest⟩ := List.forall_mem_cons.mp (hf ▸ hsize)
    rw [resume_of_frames hf]
    exact ⟨htx, hrx, List.forall_mem_cons.mpr ⟨hpc, hrest⟩⟩
  case radioSend n hn _ | linkSend n hn => exact ⟨htx, hrx, List.forall_mem_cons.mpr ⟨hn, hsize⟩⟩
  case radioInit | dismiss | appSend | update => exact ⟨htx, hrx, List.forall_mem_cons.mpr ⟨trivial, hsize⟩⟩
  all_goals exact ⟨htx, hrx, hsize⟩

/-- Settles O45: T1, L1 and A1 check each size before it is carried on, and L2 writes within the size L1 let through. -/
theorem stepKeepsMemoryCanonical : Obligations.StepKeepsMemoryCanonical := by
  intro s t h hstep
  rcases step_effects hstep with ⟨rest, hs, rfl⟩ | ⟨hlive, heff⟩
  · exact ⟨Memory.wf_nil _, Memory.wf_nil _, fun _ hf => absurd hf List.not_mem_nil⟩
  cases heff with
  | isrPull rest chip len bytes draw draws hs hw hbuf hlen =>
    exact ⟨h.1, Buffer.wf_ofFrame (Nat.lt_succ_of_le hlen), h.2.2⟩
  | micro rest hrest pc _ hr hmicro => exact memoryOk_of_micro (s := popEvent rest s) hr hmicro h
  | command rest hrest i port _ hm hr hd hcmd => exact memoryOk_of_command hcmd h
  | agent | isrQueue | isrLong | badCommand => exact h

/-! ## The registry (R44) -/

theorem MicroEffect.handlers_eq {s t : State} {pc : Pc} (h : MicroEffect s pc t) : t.handlers = s.handlers := by
  cases h <;> rfl

/-- A registration appends where there is room, APP_INIT empties the registry, nothing else writes it (R249, R258). -/
theorem CommandEffect.handlers_cases {s t : State} {i : Instr} (h : CommandEffect s i t) :
    t.handlers = s.handlers ∨ (i = .appInit ∧ t.handlers = []) ∨
      ∃ e, t.handlers = s.handlers ++ [e] ∧ s.handlers.length ≠ nHandlers s.cfg := by
  cases h
  case appInit => exact .inr (.inl ⟨rfl, rfl⟩)
  case register ep flags hroom => exact .inr (.inr ⟨_, rfl, hroom⟩)
  all_goals exact .inl rfl

/-- Settles O49: a registration finds the registry short of its capacity. -/
theorem stepKeepsRegistryWithinCapacity : Obligations.StepKeepsRegistryWithinCapacity := by
  intro s t h hstep
  rcases step_effects hstep with ⟨rest, hs, rfl⟩ | ⟨hlive, heff⟩
  · exact Nat.zero_le _
  cases heff with
  | micro rest hrest pc _ hr hmicro => unfold registryOk; rw [hmicro.handlers_eq, hmicro.cfg_eq]; exact h
  | command rest hrest i port _ hm hr hd hcmd =>
    unfold registryOk
    rw [hcmd.cfg_eq]
    rcases hcmd.handlers_cases with he | ⟨-, he⟩ | ⟨e, he, hroom⟩
    · rw [he]; exact h
    · rw [he]; exact Nat.zero_le _
    · rw [he, List.length_append]; exact Nat.lt_of_le_of_ne h hroom
  | agent | isrQueue | isrPull | isrLong | badCommand => exact h

/-! ## The receive slot (R180) -/

theorem rxWaiting_of_slotOk {s : State} {pc : Pc} (h : slotOk s) (hr : runningAt s = some pc) (h2 : pc ≠ .d2)
    (h3 : pc ≠ .d3) (hq : s.rxQueued = true) : s.rxWaiting = true := by
  rcases h hq with hw | hd2 | hd3
  · exact hw
  · exact absurd (Option.some.inj (hr.symm.trans hd2)) h2
  · exact absurd (Option.some.inj (hr.symm.trans hd3)) h3

theorem rxWaiting_of_slotOk_of_idle {s : State} (h : slotOk s) (hr : runningAt s = none) (hq : s.rxQueued = true) :
    s.rxWaiting = true := by
  simpa [hr] using h hq

/-- A dismiss moves from D1 to D2, from D2 with a frame queued to D3, and ends with the slot waiting; no other micro-step
writes the slot's flags (R34, R35, R178). -/
theorem slotOk_of_micro {s t : State} {pc : Pc} (hr : runningAt s = some pc) (hmicro : MicroEffect s pc t)
    (h : slotOk s) : slotOk t := by
  have hwait : pc ≠ .d2 → pc ≠ .d3 → s.rxQueued = true → s.rxWaiting = true := rxWaiting_of_slotOk h hr
  cases hmicro
  case d1 => exact fun _ => .inr (.inl (runningAt_goto hr))
  case d2 hq => exact fun hq' => absurd (hq.symm.trans hq') Bool.false_ne_true
  case d2Queued => exact fun _ => .inr (.inr (runningAt_goto hr))
  case d3 => exact fun _ => .inl rfl
  case d3Long => exact fun _ => .inr (.inr hr)
  all_goals exact fun hq => .inl (hwait nofun nofun hq)

/-- Of the host commands RADIO_INIT clears both flags and a dismiss goes to D2 (R178, R181). -/
theorem slotOk_of_command {s t : State} {i : Instr} (hr : runningAt s = none) (hcmd : CommandEffect s i t)
    (h : slotOk s) : slotOk t := by
  have hwait : s.rxQueued = true → s.rxWaiting = true := rxWaiting_of_slotOk_of_idle h hr
  cases hcmd
  case radioInit => exact nofun
  case dismiss => exact fun _ => .inr (.inl rfl)
  all_goals exact fun hq => .inl (hwait hq)

/-- Settles O47: the ISR queues only beside a waiting frame, and between D1 and the end of D3 the dismiss itself is
running. -/
theorem stepKeepsSlotInvariant : Obligations.StepKeepsSlotInvariant := by
  intro s t h hstep
  rcases step_effects hstep with ⟨rest, hs, rfl⟩ | ⟨hlive, heff⟩
  · exact nofun
  cases heff with
  | isrQueue rest chip hs hen hw => exact fun _ => .inl hw
  | isrPull => exact fun _ => .inl rfl
  | micro rest hrest pc _ hr hmicro => exact slotOk_of_micro (s := popEvent rest s) hr hmicro h
  | command rest hrest i port _ hm hr hd hcmd =>
    exact slotOk_of_command (s := { popEvent rest s with port := port, result := none }) hr hcmd h
  | agent | isrLong | badCommand => exact h

/-! ## Where the interrupt is masked (R180) -/

theorem runsMasked_of_runningAt {s : State} {pc : Pc} (h : runningAt s = some pc) : runsMasked s = maskedAt pc := by
  simp [runsMasked, h]

theorem runsMasked_of_idle {s : State} (h : runningAt s = none) : runsMasked s = false := by
  simp [runsMasked, h]

theorem runsMasked_congr {s t : State} (h : t.frames = s.frames) : runsMasked t = runsMasked s := by
  unfold runsMasked runningAt; rw [h]

/-- With every frame suspended nothing runs. -/
theorem runningAt_of_suspended {s : State} (h : ∀ f ∈ s.frames, f.upcall.isSome = true) : runningAt s = none := by
  unfold runningAt
  cases hf : s.frames with
  | nil => rfl
  | cons f rest => exact if_pos (h f (hf ▸ List.mem_cons_self ..))

theorem runningAt_suspend {s : State} {u : Upcall} {pc : Pc} : runningAt (suspend u pc s) = none := by
  unfold runningAt suspend
  cases s.frames <;> rfl

/-- A micro-step that returns with the interrupt enabled, or masks it at T3, agrees with the stack it leaves; any other
leaves both the flag and where the running operation stands with respect to the mask (R170, R173, R181). -/
theorem MicroEffect.mask_cases {s t : State} {pc : Pc} (h : MicroEffect s pc t) (hr : runningAt s = some pc)
    (htail : ∀ f ∈ s.frames.tail, f.upcall.isSome = true) :
    t.irqEn = !runsMasked t ∨
      (t.irqEn = s.irqEn ∧ t.radioReady = s.radioReady ∧ runsMasked t = maskedAt pc) := by
  have hret : ∀ {u : State}, u.frames = s.frames.tail → runsMasked u = false := fun hu =>
    runsMasked_of_idle (runningAt_of_suspended (hu ▸ htail))
  have hgo : ∀ {pc' : Pc} {u : State}, u.frames = (goto pc' s).frames → runsMasked u = maskedAt pc' := fun hu =>
    (runsMasked_congr hu).trans (runsMasked_of_runningAt (runningAt_goto hr))
  cases h
  case i4 | t12 | d3 => exact .inl (by rw [hret rfl]; rfl)
  case t3 n => exact .inl (by rw [hgo (pc' := .t4 n) (u := goto _ { s with irqEn := false }) rfl]; rfl)
  case start | d3Long | u4Full | sd1Full => exact .inr ⟨rfl, rfl, runsMasked_of_runningAt hr⟩
  case t1Refuse | d2 | l1Refuse => exact .inr ⟨rfl, rfl, hret rfl⟩
  case u4 | sd1Call => exact .inr ⟨rfl, rfl, runsMasked_of_idle runningAt_suspend⟩
  case ss1Done use | ss1Command use _ | ss2 use _ => refine .inr ⟨rfl, rfl, (hgo rfl).trans ?_⟩; cases use <;> rfl
  case u2Accept pc' _ hp =>
    refine .inr ⟨rfl, rfl, (hgo rfl).trans ?_⟩
    obtain rfl | ⟨u, rfl⟩ | ⟨k, ep, n, rfl⟩ := hp <;> rfl
  all_goals exact .inr ⟨rfl, rfl, (hgo rfl).trans rfl⟩

theorem maskOk_of_agrees {t : State} (h : t.irqEn = !runsMasked t) : maskOk t := fun _ => by simp [h]

theorem maskOk_of_kept {s t : State} (hen : t.irqEn = s.irqEn) (hready : t.radioReady = s.radioReady)
    (hruns : runsMasked t = runsMasked s) (h : maskOk s) : maskOk t := by
  unfold maskOk; rw [hen, hready, hruns]; exact h

theorem maskedAt_of_resumesAt {pc : Pc} (h : resumesAt pc = true) : maskedAt pc = false := by
  unfold resumesAt at h
  split at h
  · rfl
  · rfl
  · cases h

/-- RADIO_INIT masks as it is issued; no other command writes the interrupt flag or starts where it is masked, and a frame
that resumes does so at D1 or SD2 (R181, R262, R263). -/
theorem CommandEffect.mask_cases {s t : State} {i : Instr} (h : CommandEffect s i t) (hr : runningAt s = none)
    (hres : ∀ f ∈ s.frames, f.upcall.isSome = true → resumesAt f.pc = true) :
    t.irqEn = !runsMasked t ∨ (t.irqEn = s.irqEn ∧ t.radioReady = s.radioReady ∧ runsMasked t = false) := by
  cases h
  case radioInit => exact .inl rfl
  case radioSend | dismiss | linkSend | appSend | update => exact .inr ⟨rfl, rfl, rfl⟩
  case upcallReturn f rest hf hu =>
    have hpc : resumesAt f.pc = true := hres f (hf ▸ List.mem_cons_self ..) hu
    rw [resume_of_frames hf]
    exact .inr ⟨rfl, rfl, (runsMasked_of_runningAt (pc := f.pc) rfl).trans (maskedAt_of_resumesAt hpc)⟩
  all_goals exact .inr ⟨rfl, rfl, runsMasked_of_idle hr⟩

/-- Settles O48: a step of the running frame keeps the flag in agreement with its label, and under the stack discipline a
frame that returns leaves only suspended ones. -/
theorem stepKeepsMaskInvariant : Obligations.StepKeepsMaskInvariant := by
  intro s t hstack h hstep
  obtain ⟨htail, hres, -⟩ := hstack
  rcases step_effects hstep with ⟨rest, hs, rfl⟩ | ⟨hlive, heff⟩
  · exact nofun
  cases heff with
  | micro rest hrest pc _ hr hmicro =>
    rcases hmicro.mask_cases hr htail with hag | ⟨hen, hready, hruns⟩
    · exact maskOk_of_agrees hag
    · exact maskOk_of_kept (s := s) hen hready (hruns.trans (runsMasked_of_runningAt hr).symm) h
  | command rest hrest i port _ hm hr hd hcmd =>
    rcases hcmd.mask_cases hr hres with hag | ⟨hen, hready, hruns⟩
    · exact maskOk_of_agrees hag
    · exact maskOk_of_kept (s := s) hen hready (hruns.trans (runsMasked_of_idle hr).symm) h
  | agent | isrQueue | isrPull | isrLong | badCommand => exact h

/-! ## CH3 (R161) -/

/-- A micro-step leaves the chip's buffer, empties it or fills it for a transmission. -/
theorem MicroEffect.buffer_cases {s t : State} {pc : Pc} (h : MicroEffect s pc t) :
    t.chip.buffer = s.chip.buffer ∨ t.chip.buffer = .empty ∨ ∃ len bytes, t.chip.buffer = .written len bytes := by
  cases h
  case i2 | d3 | d3Long => exact .inr (.inl rfl)
  case t4 n => exact .inr (.inr ⟨_, _, rfl⟩)
  all_goals exact .inl rfl

/-- A pull that finds too long a frame is the one micro-step that raises CHIP_LENGTH. -/
theorem MicroEffect.fault_cases {s t : State} {pc : Pc} (h : MicroEffect s pc t) :
    t.fault = s.fault ∨ t.fault = some .upcallDepth ∨ radioMtu < (chipFrame s).1.toNat := by
  cases h
  case u4Full | sd1Full => exact .inr (.inl rfl)
  case d3Long hlong => exact .inr (.inr hlong)
  all_goals exact .inl rfl

theorem CommandEffect.chip_eq {s t : State} {i : Instr} (h : CommandEffect s i t) : t.chip = s.chip := by
  cases h <;> rfl

theorem CommandEffect.fault_cases {s t : State} {i : Instr} (h : CommandEffect s i t) :
    t.fault = s.fault ∨ ∃ r, t.fault = some r ∧ r ≠ .chipLength := by
  cases h
  case faulted r hr => exact .inr ⟨r, rfl, hr⟩
  all_goals exact .inl rfl

theorem MicroEffect.sched_eq {s t : State} {pc : Pc} (h : MicroEffect s pc t) : t.sched = s.sched := by
  cases h <;> rfl

theorem CommandEffect.sched_eq {s t : State} {i : Instr} (h : CommandEffect s i t) : t.sched = s.sched := by
  cases h <;> rfl

/-- Settles O57: the two pulls read a frame whose length CH3 bounds, and a pull, a send and RADIO_INIT leave the chip no
received frame. -/
theorem noChipLengthFaultUnderCH3 : Obligations.NoChipLengthFaultUnderCH3 := by
  intro s t ⟨hheld, hcoming⟩ hstep
  rcases step_effects hstep with ⟨rest, hs, rfl⟩ | ⟨hlive, heff⟩
  · exact ⟨⟨hheld, fun e he => hcoming e (hs ▸ List.mem_cons_of_mem _ he)⟩, nofun⟩
  cases heff with
  | agent rest chip clock port hrest hbuf =>
    refine ⟨⟨?_, fun e he => hcoming e (hrest he)⟩, by simp [hlive]⟩
    rcases hbuf with he | ⟨len, bytes, he, hev⟩
    · exact he ▸ hheld
    · exact he ▸ hcoming _ hev
  | isrQueue rest chip hs hen hw hbuf =>
    exact ⟨⟨hbuf ▸ hheld, fun e he => hcoming e (hs ▸ List.mem_cons_of_mem _ he)⟩, by simp [hlive]⟩
  | isrPull rest chip len bytes draw draws hs hw hbuf =>
    exact ⟨⟨hbuf ▸ trivial, fun e he => hcoming e (hs ▸ List.mem_cons_of_mem _ he)⟩, by simp [hlive]⟩
  | isrLong rest chip draws hs hlong => exact absurd hheld hlong
  | micro rest hrest pc _ hr hmicro =>
    refine ⟨⟨?_, fun e he => hcoming e (hrest (by rw [hmicro.sched_eq] at he; exact he))⟩, ?_⟩
    · rcases hmicro.buffer_cases with he | he | ⟨len, bytes, he⟩
      · exact he ▸ hheld
      · exact he ▸ trivial
      · exact he ▸ trivial
    · rcases hmicro.fault_cases with he | he | hlong
      · simp [he, hlive]
      · simp [he]
      · exact absurd (chipFrame_len_le (s := popEvent rest s) hheld) (Nat.not_le.mpr hlong)
  | badCommand rest hrest port r hr =>
    exact ⟨⟨hheld, fun e he => hcoming e (hrest he)⟩, by rcases hr with rfl | rfl <;> simp⟩
  | command rest hrest i port _ hm hr hd hcmd =>
    refine ⟨⟨hcmd.chip_eq ▸ hheld, fun e he => hcoming e (hrest (by rw [hcmd.sched_eq] at he; exact he))⟩, ?_⟩
    rcases hcmd.fault_cases with he | ⟨r, he, hr⟩
    · simp [he, hlive]
    · simp [he, hr]

end Sys2Proof.Machine
end

section
/-! Who writes what (10_state.md, 70_reset_and_hazards.md §1): which micro-step and which command writes each register, then
that no step of the whole machine does otherwise. -/

namespace Sys2Proof.Machine

/-! ## What a micro-step writes -/

section
variable {s t : State} {pc : Pc}

theorem MicroEffect.seq_cases (h : MicroEffect s pc t) : t.seq = s.seq ∨ ∃ n, pc = .l2 n ∧ t.seq = s.seq + 1 := by
  cases h
  case l2 n => exact .inr ⟨n, rfl, rfl⟩
  all_goals exact .inl rfl

theorem MicroEffect.dispatchEp_cases (h : MicroEffect s pc t) : t.dispatchEp = s.dispatchEp ∨
    ∃ kind i ep count, pc = .sd1 kind i ep count ∧ t.dispatchEp = ep ∧ runningAt t = none := by
  cases h
  case sd1Call kind i ep count hroom => exact .inr ⟨kind, i, ep, count, rfl, rfl, runningAt_suspend⟩
  all_goals exact .inl rfl

theorem MicroEffect.lastSrc_cases (h : MicroEffect s pc t) :
    t.lastSrc = s.lastSrc ∨ t.lastSrc = s.rxBuf.getLE16 8 ∧ (rxFilter s).isSome = true ∧ pc = .u2 := by
  cases h
  case u2Accept pc' hf hp => exact .inr ⟨rfl, hf, rfl⟩
  all_goals exact .inl rfl

theorem MicroEffect.rxBuf_eq (h : MicroEffect s pc t) (hpc : pc ≠ .d3) : t.rxBuf = s.rxBuf := by
  cases h
  case d3 => exact absurd rfl hpc
  all_goals rfl

theorem MicroEffect.rxQueued_cases (h : MicroEffect s pc t) :
    t.rxQueued = s.rxQueued ∨ t.rxQueued = false ∧ pc = .d3 := by
  cases h
  case d3 => exact .inr ⟨rfl, rfl⟩
  all_goals exact .inl rfl

/-- No micro-step writes the addresses (R38 to R40). -/
theorem MicroEffect.addresses_eq (h : MicroEffect s pc t) :
    t.dstAddr = s.dstAddr ∧ t.panId = s.panId ∧ t.localAddr = s.localAddr := by
  cases h <;> exact ⟨rfl, rfl, rfl⟩

end

/-! ## What a host command writes -/

section
variable {s t : State} {i : Instr}

theorem CommandEffect.seq_eq (h : CommandEffect s i t) : t.seq = s.seq := by
  cases h <;> rfl

theorem CommandEffect.dispatchEp_eq (h : CommandEffect s i t) : t.dispatchEp = s.dispatchEp := by
  cases h <;> rfl

theorem CommandEffect.rxBuf_eq (h : CommandEffect s i t) : t.rxBuf = s.rxBuf := by
  cases h <;> rfl

theorem CommandEffect.lastSrc_cases (h : CommandEffect s i t) : t.lastSrc = s.lastSrc ∨
    i = .linkGetRxPacket ∧ t.lastSrc = s.rxBuf.getLE16 8 ∧ (rxFilter s).isSome = true ∧ isReady s .link = true ∧
      s.rxWaiting = true := by
  cases h
  case linkGet r hf hr hw => exact .inr ⟨rfl, rfl, hf, hr, hw⟩
  all_goals exact .inl rfl

theorem CommandEffect.rxQueued_cases (h : CommandEffect s i t) :
    t.rxQueued = s.rxQueued ∨ t.rxQueued = false ∧ i = .radioInit := by
  cases h
  case radioInit => exact .inr ⟨rfl, rfl⟩
  all_goals exact .inl rfl

theorem CommandEffect.dstAddr_cases (h : CommandEffect s i t) :
    t.dstAddr = s.dstAddr ∨ ∃ addr, i = .linkSetDst addr ∧ t.dstAddr = addr := by
  cases h
  case linkSetDst addr => exact .inr ⟨addr, rfl, rfl⟩
  all_goals exact .inl rfl

theorem CommandEffect.panId_localAddr_cases (h : CommandEffect s i t) : t.panId = s.panId ∧ t.localAddr = s.localAddr ∨
    ∃ pan addr, i = .linkInit pan addr ∧ t.panId = pan ∧ t.localAddr = addr := by
  cases h
  case linkInit pan addr => exact .inr ⟨pan, addr, rfl, rfl, rfl⟩
  all_goals exact .inl ⟨rfl, rfl⟩

end

/-! ## The whole machine -/

/-- Settles O50: the one micro-step that writes the counter is L2. -/
theorem sequenceAdvancesOnlyAtEncapsulation : Obligations.SequenceAdvancesOnlyAtEncapsulation := by
  intro s t hstep
  rcases step_effects hstep with ⟨rest, hs, -⟩ | ⟨-, heff⟩
  · exact .inr (.inr ⟨rest, hs⟩)
  cases heff with
  | micro rest hrest pc _ hr hmicro =>
    exact hmicro.seq_cases.imp_right fun ⟨n, hpc, hseq⟩ => .inl ⟨n, hpc ▸ hr, hseq⟩
  | command rest hrest i port _ hm hr hd hcmd => exact .inl hcmd.seq_eq
  | agent | isrQueue | isrPull | isrLong | badCommand => exact .inl rfl

/-- Settles O51: the one micro-step that writes the dispatch context is SD1 with a match, which suspends its frame. -/
theorem dispatchContextWrittenOnlyBySlaveUpcall : Obligations.DispatchContextWrittenOnlyBySlaveUpcall := by
  intro s t hstep
  rcases step_effects hstep with ⟨rest, hs, -⟩ | ⟨-, heff⟩
  · exact .inr (.inr ⟨rest, hs⟩)
  cases heff with
  | micro rest hrest pc _ hr hmicro =>
    exact hmicro.dispatchEp_cases.imp_right fun ⟨kind, i, ep, count, hpc, hep, ht⟩ =>
      .inl ⟨kind, i, ep, count, hpc ▸ hr, hep, ht⟩
  | command rest hrest i port _ hm hr hd hcmd => exact .inl hcmd.dispatchEp_eq
  | agent | isrQueue | isrPull | isrLong | badCommand => exact .inl rfl

/-- Settles O52: the filter accepts at U2, and in line 1 of LINK_GET_RX_PACKET. -/
theorem lastSourceWrittenOnlyOnAcceptance : Obligations.LastSourceWrittenOnlyOnAcceptance := by
  intro s t hstep
  rcases step_effects hstep with ⟨rest, hs, -⟩ | ⟨-, heff⟩
  · exact .inr (.inr ⟨rest, hs⟩)
  cases heff with
  | micro rest hrest pc _ hr hmicro =>
    exact hmicro.lastSrc_cases.imp_right fun ⟨hsrc, hf, hpc⟩ => .inl ⟨hsrc, hf, .inl (hpc ▸ hr)⟩
  | command rest hrest i port _ hm hr hd hcmd =>
    refine hcmd.lastSrc_cases.imp_right ?_
    rintro ⟨rfl, hsrc, hf, hready, hw⟩
    exact .inl ⟨hsrc, hf, .inr ⟨hm, hready, hw, port, hd⟩⟩
  | agent | isrQueue | isrPull | isrLong | badCommand => exact .inl rfl

/-- Settles O53: the ISR pulls only into an empty slot, and the one micro-step that pulls is D3. -/
theorem waitingFrameIsStable : Obligations.WaitingFrameIsStable := by
  intro s t hstep hw hd3 hreset
  rcases step_effects hstep with ⟨rest, hs, -⟩ | ⟨-, heff⟩
  · exact absurd hs (hreset rest)
  cases heff with
  | isrPull rest chip len bytes draw draws hs hempty => exact absurd (hempty.symm.trans hw) Bool.false_ne_true
  | micro rest hrest pc _ hr hmicro => exact hmicro.rxBuf_eq fun hpc => hd3 (hpc ▸ hr)
  | command rest hrest i port _ hm hr hd hcmd => exact hcmd.rxBuf_eq
  | agent | isrQueue | isrLong | badCommand => rfl

/-- Settles O54: the ISR sets the flag, D3 and the issue of RADIO_INIT clear it. -/
theorem queuedFlagWrittenOnlyByItsOwners : Obligations.QueuedFlagWrittenOnlyByItsOwners := by
  intro s t hstep
  rcases step_effects hstep with ⟨rest, hs, rfl⟩ | ⟨-, heff⟩
  · exact .inr (.inr ⟨rfl, .inr (.inr ⟨rest, hs⟩)⟩)
  cases heff with
  | isrQueue rest chip hs hen hw => exact .inr (.inl ⟨rfl, hen, hw, rest, hs⟩)
  | micro rest hrest pc _ hr hmicro =>
    exact hmicro.rxQueued_cases.imp_right fun ⟨hq, hpc⟩ => .inr ⟨hq, .inl (hpc ▸ hr)⟩
  | command rest hrest i port _ hm hr hd hcmd =>
    refine hcmd.rxQueued_cases.imp_right ?_
    rintro ⟨hq, rfl⟩
    exact .inr ⟨hq, .inr (.inl ⟨hm, port, hd⟩)⟩
  | agent | isrPull | isrLong | badCommand => exact .inl rfl

/-- Settles O55: of the host commands a registration appends and APP_INIT empties; no micro-step writes the registry. -/
theorem registryIsAppendOnly : Obligations.RegistryIsAppendOnly := by
  intro s t hstep
  rcases step_effects hstep with ⟨rest, hs, -⟩ | ⟨-, heff⟩
  · exact .inr (.inr ⟨rest, hs⟩)
  cases heff with
  | micro rest hrest pc _ hr hmicro => exact .inl ⟨[], by rw [hmicro.handlers_eq, List.append_nil]; rfl⟩
  | command rest hrest i port _ hm hr hd hcmd =>
    rcases hcmd.handlers_cases with he | ⟨rfl, -⟩ | ⟨e, he, -⟩
    · exact .inl ⟨[], by rw [he, List.append_nil]; rfl⟩
    · exact .inr (.inl ⟨hm, port, hd⟩)
    · exact .inl ⟨[e], he⟩
  | agent | isrQueue | isrPull | isrLong | badCommand => exact .inl ⟨[], (List.append_nil _).symm⟩

/-- Settles O56: an effect other than a reset event is one of a run that has not ended, and no effect names the
parameters. -/
theorem faultAndParametersPersist : Obligations.FaultAndParametersPersist := by
  intro s t hstep
  rcases step_effects hstep with ⟨rest, hs, rfl⟩ | ⟨hlive, heff⟩
  · exact ⟨rfl, fun _ => ⟨rest, hs⟩⟩
  refine ⟨?_, fun hfault => absurd hlive hfault⟩
  cases heff with
  | micro rest hrest pc _ hr hmicro => exact hmicro.cfg_eq
  | command rest hrest i port _ hm hr hd hcmd => exact hcmd.cfg_eq
  | agent | isrQueue | isrPull | isrLong | badCommand => rfl

/-- Settles O58: LINK_SET_DST and LINK_INIT are the two commands that write an address. -/
theorem linkConfigurationPersists : Obligations.LinkConfigurationPersists := by
  intro s t hstep
  rcases step_effects hstep with ⟨rest, hs, -⟩ | ⟨-, heff⟩
  · exact .inl ⟨rest, hs⟩
  refine .inr ?_
  cases heff with
  | micro rest hrest pc _ hr hmicro =>
    obtain ⟨hdst, haddrs⟩ := hmicro.addresses_eq
    exact ⟨.inl hdst, .inl haddrs⟩
  | command rest hrest i port _ hm hr hd hcmd =>
    constructor
    · refine hcmd.dstAddr_cases.imp_right ?_
      rintro ⟨addr, rfl, hdst⟩
      exact ⟨hm, addr, port, hd, hdst⟩
    · refine hcmd.panId_localAddr_cases.imp_right ?_
      rintro ⟨pan, addr, rfl, haddrs⟩
      exact ⟨hm, pan, addr, port, hd, haddrs⟩
  | agent | isrQueue | isrPull | isrLong | badCommand => exact ⟨.inl rfl, .inl ⟨rfl, rfl⟩⟩

end Sys2Proof.Machine
end

section
/-! Fetching, faults and reset (30_encoding.md, 60_exceptions.md, 70_reset_and_hazards.md): what a step takes off the host
port or out of RXBUF, when a command answers and when it is refused, then the statements about them. -/

namespace Sys2Proof.Machine

/-! ## The host port -/

section
variable {s : State} (hu : undisturbed s) (hm : hostMayIssue s = true)
include hu hm

theorem step_fetchCommand : step s = execFetch (fetchCommand s) := by
  rw [step_undisturbed hu, fetch_mayIssue hm]

theorem step_of_decoded {i : Instr} {rest : List Byte} (hd : decodeHost s.port = .ok i rest) :
    step s = exec i { s with port := rest, result := none } := by
  rw [step_fetchCommand hu hm, fetchCommand, hd]; rfl

theorem step_of_illegalOpcode {rest : List Byte} (hd : decodeHost s.port = .illegalOpcode rest) :
    step s = .next { s with port := rest, fault := some .illegalOpcode } := by
  rw [step_fetchCommand hu hm, fetchCommand, hd]; rfl

theorem step_of_badOperand {rest : List Byte} (hd : decodeHost s.port = .badOperand rest) :
    step s = .next { s with port := rest, fault := some .badOperand } := by
  rw [step_fetchCommand hu hm, fetchCommand, hd]; rfl

end

theorem decodeOpcode_of_not_mem {opcode : Byte} (h : opcode.toNat ∉ hostOpcodes) (args : List Byte) :
    decodeOpcode opcode args = .illegalOpcode args := by
  unfold decodeOpcode
  split
  case h_31 => rfl
  all_goals exact absurd (by rw [‹opcode.toNat = _›]; decide) h

theorem checkOperands_of_not_wf {i : Instr} (h : ¬ i.wf = true) (rest : List Byte) :
    checkOperands (.ok i rest) = .badOperand rest :=
  if_neg h

/-- Settles O7: the decoded command is what the port's fetch answers. -/
theorem stepRunsDecodedCommand : Obligations.StepRunsDecodedCommand := fun _ _ _ hu hm hd => step_of_decoded hu hm hd

/-- Settles O9: every row of the opcode map is in the table. -/
theorem illegalOpcodeFaults : Obligations.IllegalOpcodeFaults := by
  intro s opcode rest hu hm hport hop
  refine step_of_illegalOpcode hu hm ?_
  rw [hport, decodeHost, decodeOpcode_of_not_mem hop]
  rfl

/-- Settles O10: a present byte above 1 and flags above 3 are what the operand check rejects. -/
theorem badOperandFaults : Obligations.BadOperandFaults := by
  intro s b ep rest hu hm
  have hpresent (h : 1 < b.toNat) : ¬ presentOk b = true := fun hok => Nat.not_le.mpr h ((presentOk_iff b).mp hok)
  have hflags (h : 3 < b.toNat) : ¬ flagsOk b = true := fun hok => Nat.not_le.mpr h ((flagsOk_iff b).mp hok)
  refine ⟨fun h hport => ?_, fun h hport => ?_, fun h hport => ?_⟩ <;>
    refine step_of_badOperand hu hm (hport ▸ checkOperands_of_not_wf ?_ rest)
  · exact hpresent h
  · exact hpresent h
  · exact hflags h

/-! ## The received frame (R261 U2) -/

theorem step_u2 {s : State} (hu : undisturbed s) (h : runningAt s = some .u2) : step s = execFetch (fetchFrame s) :=
  step_at hu h

theorem fetchFrame_of_decoded {s : State} {i : Instr} (hf : (rxFilter s).isSome = true)
    (hd : decodeApp (s.rxBuf.slice rxLinkOff (rxPayloadSize s)) = some i) : fetchFrame s = .instr i (acceptFrame s) := by
  obtain ⟨accepted, ha⟩ := Option.isSome_iff_exists.mp hf
  simp only [fetchFrame, ha, hd]

/-- Settles O8: the frame LINK accepts is fetched as the application frame in its payload. -/
theorem stepRunsReceivedFrame : Obligations.StepRunsReceivedFrame := by
  intro s i hu hr hf hd
  rw [step_u2 hu hr, fetchFrame_of_decoded hf hd]
  rfl

/-! ## Faults (R37, R301) -/

/-- Settles O11: a step of a faulted run answers its fault, so no later step is reached. -/
theorem faultEndsTheRun : Obligations.FaultEndsTheRun := fun _ _ hf hs _ => run_succ_of_fault (step_faulted hf hs)

/-- Settles O13: a gated command, past its operand check, is issued behind the ready check of its sub-block. -/
theorem notInitialisedFaults : Obligations.NotInitialisedFaults := by
  intro i b s hg hw hready
  have hnot : ¬ isReady s b = true := Bool.eq_false_iff.mp hready
  cases i <;> cases hg
  case appSetReadAnsCb | appSetWriteAnsCb | appRegisterHandler => exact (if_pos hw).trans (if_neg hnot)
  all_goals exact if_neg hnot

/-- A choice of two next states is a next state. -/
theorem ite_answers_next {p : Prop} [Decidable p] {o o' : Outcome} (h : ∃ t, o = .next t) (h' : ∃ t, o' = .next t) :
    ∃ t, (if p then o else o') = .next t := by
  split_ifs
  · exact h
  · exact h'

theorem stepLinkGet_answers_next (s : State) : ∃ t, stepLinkGet s = .next t := by
  by_cases h : s.rxWaiting = true ∧ (rxFilter s).isSome = true
  · exact ⟨_, stepLinkGet_of_accepted h.1 h.2⟩
  · exact ⟨_, stepLinkGet_of_rejected h⟩

theorem stepU1_answers_next (s : State) : ∃ t, stepU1 s = .next t := by
  unfold stepU1
  cases s.rxWaiting <;> exact ⟨_, rfl⟩

theorem execUpcallReturn_answers_next (s : State) : ∃ t, execUpcallReturn s = .next t := by
  unfold execUpcallReturn
  split
  · exact ⟨_, rfl⟩
  · exact ite_answers_next ⟨_, rfl⟩ ⟨_, rfl⟩

/-- Settles O12: a first micro-step, an operand check and a ready check each choose between next states, a fault being raised
into the state. -/
theorem everyInstructionAnswersNext : Obligations.EveryInstructionAnswersNext := by
  intro i s
  cases i
  case radioPacketSend | linkPacketSend | appSendReadCmd | appSendWriteCmd | appSendReadAns | appSendWriteAns |
      appSetReadAnsCb | appSetWriteAnsCb =>
    exact ite_answers_next (ite_answers_next ⟨_, rfl⟩ ⟨_, rfl⟩) ⟨_, rfl⟩
  case linkGetRxPacket => exact ite_answers_next (stepLinkGet_answers_next _) ⟨_, rfl⟩
  case appUpdate => exact ite_answers_next (stepU1_answers_next _) ⟨_, rfl⟩
  case appRegisterHandler =>
    exact ite_answers_next (ite_answers_next (ite_answers_next ⟨_, rfl⟩ ⟨_, rfl⟩) ⟨_, rfl⟩) ⟨_, rfl⟩
  case upcallReturn => exact execUpcallReturn_answers_next s
  case radioInit | linkInit | appInit | readCmd | readAns | writeCmd | writeAns | listCmd | listAns | findCmd | findAns |
      linkFcTx | linkFcFilter => exact ⟨_, rfl⟩
  all_goals exact ite_answers_next ⟨_, rfl⟩ ⟨_, rfl⟩

/-! ## Refused sends (R168, R214, R256) -/

theorem stepT1_of_gt {n : Nat} (h : radioMtu < n) (s : State) : stepT1 n s = .next (finish (.bool false) s) := if_pos h

theorem stepL1_of_gt {n : Nat} (h : linkMtu < n) (s : State) : stepL1 n s = .next (finish (.bool false) s) := if_pos h

theorem stepA1_of_gt {cmd : Byte} {n : Nat} (h : maxCount cmd < n) (ep : Option Byte) (s : State) :
    stepA1 cmd ep n s = .next (finish (.bool false) s) := if_pos h

/-- Settles O18: each size check is the first micro-step of its send, on a state with the new frame pushed. -/
theorem oversizedSendsRejected : Obligations.OversizedSendsRejected := fun s n ep =>
  ⟨fun h => issue_answers (execRadioPacketSend.eq_def n s) (stepT1_of_gt h _),
    fun h => issue_answers (execLinkPacketSend.eq_def n s) (stepL1_of_gt h _),
    fun h => ⟨issue_answers (execAppSendReadCmd.eq_def ep n s) (stepA1_of_gt h _ _),
      issue_answers (execAppSendWriteCmd.eq_def ep n s) (stepA1_of_gt h _ _),
      issue_answers (execAppSendReadAns.eq_def n s) (stepA1_of_gt h _ _),
      issue_answers (execAppSendWriteAns.eq_def n s) (stepA1_of_gt h _ _)⟩⟩

/-! ## Wire formats as instructions -/

/-- Settles O31: the transmitted pattern is one 16-bit field of TXBUF, the accepted one writes the cached source alone. -/
theorem frameControlPatternsAct : Obligations.FrameControlPatternsAct := fun s v _ _ _ =>
  ⟨⟨_, rfl, rfl, Buffer.getLE16_putLE16 .., fun _ hi => putFrameControl_read_of_le (fcTx v) s hi⟩, rfl⟩

/-- Settles O38: the meaning of a reserved code is the dropping of its frame. -/
theorem reservedCodesAreDropped : Obligations.ReservedCodesAreDropped := fun _ _ _ => ⟨rfl, rfl, rfl, rfl⟩

/-! ## The chip's frame -/

/-- Settles O25: a chip that holds no received frame meets CH3. -/
theorem chipFrameIsTheHeldFrame : Obligations.ChipFrameIsTheHeldFrame := by
  refine fun s => ⟨chipFrame_length s, fun _ _ => chipFrame_received, fun hnone => chipFrame_len_le ?_⟩
  cases hb : s.chip.buffer with
  | received len bytes => exact absurd hb (hnone len bytes)
  | empty | written => trivial

/-! ## Reset -/

/-- Settles O15: a reset event is one step to a new run, which has the chip, the clock and the parameters it was given. -/
theorem resetEventStartsANewRun : Obligations.ResetEventStartsANewRun := fun _ _ hs =>
  ⟨_, step_reset hs, rfl, rfl, rfl, rfl, rfl, rfl, rfl, rfl, rfl, rfl, rfl, rfl, rfl, rfl, rfl, rfl,
    State.newRun_buffers_undefined _ _ _ _ _⟩

/-- Settles O44: after reset the stack, the registry and both buffers are empty and no flag is set. -/
theorem resetMeetsTheInvariants : Obligations.ResetMeetsTheInvariants :=
  ⟨⟨Memory.wf_nil _, Memory.wf_nil _, fun _ hf => absurd hf List.not_mem_nil⟩, stackOk_of_idle rfl, nofun, nofun,
    Nat.zero_le _⟩

/-- Settles O59: seven reasons, seven codes. -/
theorem faultCodesAreTheTable : Obligations.FaultCodesAreTheTable :=
  ⟨rfl, rfl, rfl, rfl, rfl, rfl, rfl, fun r r' h => by cases r <;> cases r' <;> simp [Fault.code] at h ⊢⟩

end Sys2Proof.Machine
end

section
/-! The radio's steps (41_radio.md): spinning at SS1, one round of the completion wait, the ISR and a dismiss, each with the
statement about it. -/

namespace Sys2Proof.Machine

/-! ## Steps of a running operation -/

theorem goto_eq_of_frames {s : State} {f : Frame} {rest : List Frame} (h : s.frames = f :: rest) (pc : Pc) :
    goto pc s = { s with frames := { f with pc := pc } :: rest } := by
  simp only [goto, h]

/-- Going to where the frame already stands changes nothing. -/
theorem goto_self {s : State} {pc : Pc} (h : runningAt s = some pc) : goto pc s = s := by
  obtain ⟨f, rest, hf, -, rfl⟩ := runningAt_eq_some.mp h
  rw [goto_eq_of_frames hf]
  cases s; cases hf; rfl

/-- A `go` event is the running operation's micro-step. -/
theorem step_go_at {s : State} {pc : Pc} {rest : List Event} (hs : s.sched = .go :: rest) (hf : s.fault = none)
    (hr : runningAt s = some pc) : step s = execFetch (fetchStep pc (popEvent rest s)) := by
  rw [step_go hs hf, fetch_runningAt (s := popEvent rest s) hr]

theorem step_chip {s : State} {m : ChipMove} {rest : List Event} (hs : s.sched = .chip m :: rest) (hf : s.fault = none) :
    step s = .next (chipMove m (popEvent rest s)) :=
  step_event hf hs

theorem step_isr {s : State} {rest : List Event} (hs : s.sched = .isr :: rest) (hf : s.fault = none) :
    step s = isrIfEnabled (popEvent rest s) :=
  step_event hf hs

/-! ## Spinning at SS1 (R165) -/

/-- Settles O21: while the chip reports BUSY, SS1 goes to where it stands. -/
theorem setStateSpinsWhileBusy : Obligations.SetStateSpinsWhileBusy := by
  intro s use k hu hr hbusy
  have hstep : step s = .next s := by
    rw [step_at hu hr]
    exact (stepSS1_of_busy hbusy).trans (by rw [goto_self hr])
  induction k with
  | zero => rfl
  | succ k ih => rw [run_succ_of_next hstep, ih]

/-! ## The completion wait (R171) -/

section
variable {s : State} {t0 : Nat}

theorem stepT7_of_low (h : s.chip.regs.irqLine = false) : stepT7 t0 s = .next (goto (.t9 t0) s) := by
  simp only [stepT7, h, cond_false]

theorem stepT7_of_high (h : s.chip.regs.irqLine = true) : stepT7 t0 s = .next (goto (.t8 t0) s) := by
  simp only [stepT7, h, cond_true]

theorem stepT8_of_done (h : irqTxDone s.cfg s.chip.regs.irqStatus = true) :
    stepT8 t0 s = .next (goto (.t10 true) (clearIrqStatus s)) := by
  simp only [stepT8, h, cond_true]

theorem stepT8_of_not_done (h : irqTxDone s.cfg s.chip.regs.irqStatus = false) :
    stepT8 t0 s = .next (goto (.t9 t0) (clearIrqStatus s)) := by
  simp only [stepT8, h, cond_false]

end

/-- Reading the interrupt status does not touch the sequencer. -/
theorem clearIrqStatus_goto (s : State) (pc : Pc) : clearIrqStatus (goto pc s) = goto pc (clearIrqStatus s) := rfl

/-- Settles O22: a round is T7, then T8 with the line high, then T9 unless T8 ended the wait. -/
theorem waitRoundFollowsItsSteps : Obligations.WaitRoundFollowsItsSteps := by
  intro s hu
  refine ⟨fun hr => step_at hu hr, fun t0 hr => ⟨fun hline => ?low, fun hline => ?high⟩⟩
  case low =>
    rw [run_at hu hr (stepT7_of_low hline), run_at (s := goto _ s) hu (runningAt_goto hr) rfl, run_zero, goto_goto]
    rfl
  case high =>
    rw [run_at hu hr (stepT7_of_high hline), run_at (k := 2) hu hr (stepT7_of_high hline)]
    have hr8 : runningAt (goto (.t8 t0) s) = some (.t8 t0) := runningAt_goto hr
    refine ⟨fun hdone => ?_, fun hdone => ?_⟩
    · rw [run_at (s := goto _ s) hu hr8 (stepT8_of_done hdone), run_zero, clearIrqStatus_goto, goto_goto]
      rfl
    · have h8 : stepT8 t0 (goto (.t8 t0) s) = .next (goto (.t9 t0) (clearIrqStatus s)) := by
        rw [stepT8_of_not_done (s := goto _ s) hdone, clearIrqStatus_goto, goto_goto]
      rw [run_at (s := goto _ s) hu hr8 h8,
        run_at (s := goto _ (clearIrqStatus s)) hu (runningAt_goto (s := clearIrqStatus s) hr) rfl, run_zero, goto_goto]
      rfl

/-! ## The ISR (R175) -/

section
variable {s : State}

theorem isr_of_quiet (h : irqRxDone s.cfg s.chip.regs.irqStatus = false) : isr s = .next (clearIrqStatus s) := by
  simp only [isr, h, cond_false]

theorem isr_of_waiting (h : irqRxDone s.cfg s.chip.regs.irqStatus = true) (hw : s.rxWaiting = true) :
    isr s = .next { clearIrqStatus s with rxQueued := true } := by
  simp only [isr, h, hw, cond_true]

theorem isr_of_empty (h : irqRxDone s.cfg s.chip.regs.irqStatus = true) (hw : s.rxWaiting = false) :
    isr s = pullFrame (clearIrqStatus s) fun t => { t with rxWaiting := true } := by
  simp only [isr, h, hw, cond_true, cond_false]

end

theorem isrIfEnabled_of_enabled {s : State} (h : s.irqEn = true) : isrIfEnabled s = isr s := by
  simp only [isrIfEnabled, h]

theorem isrIfEnabled_of_masked {s : State} (h : s.irqEn = false) : isrIfEnabled s = .next s := by
  simp only [isrIfEnabled, h]

/-- Settles O24: the flag decides whether the ISR moves, then the status, the slot and the length which case it is. -/
theorem isrFollowsItsCases : Obligations.IsrFollowsItsCases := by
  intro s rest hf hs
  refine ⟨fun hen => ?masked, fun hen => ?enabled⟩
  case masked => rw [step_isr hs hf, isrIfEnabled_of_masked (s := popEvent rest s) hen]; rfl
  case enabled =>
    rw [step_isr hs hf, isrIfEnabled_of_enabled (s := popEvent rest s) hen]
    refine ⟨fun h => ?quiet, fun h hw => ?queue, fun h hw => ⟨fun hlen => ?pull, fun hlen => ?long⟩⟩
    case quiet => rw [isr_of_quiet (s := popEvent rest s) h]; rfl
    case queue => rw [isr_of_waiting (s := popEvent rest s) h hw]; rfl
    case pull =>
      rw [isr_of_empty (s := popEvent rest s) h hw, pullFrame_of_le (s := clearIrqStatus (popEvent rest s)) hlen]
      refine ⟨_, rfl, ?_, Buffer.read_ofFrame_zero .., chipFrame_length s, fun k hk => Buffer.read_ofFrame_succ _ _ _ k hk⟩
      simp
    case long =>
      rw [isr_of_empty (s := popEvent rest s) h hw, pullFrame_of_gt (s := clearIrqStatus (popEvent rest s)) hlen]
      rfl

/-! ## The dismiss (R178) -/

theorem stepD2_of_empty {s : State} (h : s.rxQueued = false) : stepD2 s = .next (finish .unit s) := by
  simp only [stepD2, h, cond_false]

theorem stepD2_of_queued {s : State} (h : s.rxQueued = true) : stepD2 s = .next (goto .d3 s) := by
  simp only [stepD2, h, cond_true]

theorem stepD3_of_le {s : State} (h : (chipFrame s).1.toNat ≤ radioMtu) :
    stepD3 s = .next (finish .unit { loadRx (chipFrame s).1 (chipFrame s).2 (chipReleaseFrame s) with
      rxWaiting := true, rxQueued := false, irqEn := true }) :=
  pullFrame_of_le h _

theorem stepD3_of_gt {s : State} (h : radioMtu < (chipFrame s).1.toNat) :
    stepD3 s = .next { chipReleaseFrame s with fault := some .chipLength } :=
  pullFrame_of_gt h _

/-- The state D1 of operation `op` leaves, for a state without the operation's frame. -/
def afterD1 (op : Instr) (s : State) : State := { s with rxWaiting := false, frames := ⟨op, .d2, none⟩ :: s.frames }

theorem dismissesTo_afterD1 {s : State} (hu : undisturbed s) (op : Instr) : dismissesTo 0 op (afterD1 op s) s := by
  have hu2 : undisturbed (afterD1 op s) := hu
  have hu3 : undisturbed (goto .d3 (afterD1 op s)) := hu
  have hr2 : runningAt (afterD1 op s) = some .d2 := rfl
  have hr3 : runningAt (goto .d3 (afterD1 op s)) = some .d3 := rfl
  refine ⟨fun hq => run_at hu2 hr2 (stepD2_of_empty hq), fun hq => ⟨fun hlen => ?pull, fun hlen => ?long⟩⟩
  case pull =>
    rw [run_at hu2 hr2 (stepD2_of_queued hq), run_at hu3 hr3 (stepD3_of_le (s := goto .d3 (afterD1 op s)) hlen)]
    refine ⟨_, rfl, ?_, Buffer.read_ofFrame_zero .., chipFrame_length s, fun k hk => Buffer.read_ofFrame_succ _ _ _ k hk⟩
    unfold finish loadRx chipReleaseFrame
    rfl
  case long =>
    rw [run_at hu2 hr2 (stepD2_of_queued hq), run_at hu3 hr3 (stepD3_of_gt (s := goto .d3 (afterD1 op s)) hlen)]
    rfl

/-- A dismiss that is past D1 after `k` steps goes on from there. -/
theorem dismissesTo_of_run {k : Nat} {op : Instr} {s t : State} (hu : undisturbed s)
    (h : run k t = .next (afterD1 op s)) : dismissesTo k op t s := by
  have hd := dismissesTo_afterD1 hu op
  unfold dismissesTo at hd ⊢
  rw [run_add k 1 t _ h, run_add k 2 t _ h]
  exact hd

/-- Settles O26: both commands are issued behind their ready check at D1. -/
theorem dismissFollowsItsSteps : Obligations.DismissFollowsItsSteps := by
  intro s i b opcode hi
  have hexec : exec i s = issue b i stepD1 s := by obtain ⟨rfl, rfl, -⟩ | ⟨rfl, rfl, -⟩ := hi <;> rfl
  refine ⟨?_, ?_, fun hnot => hexec.trans (issue_not_ready hnot _ _), fun hu hready => ⟨afterD1 i s, ?_, ?_⟩⟩
  · obtain ⟨rfl, -, rfl⟩ | ⟨rfl, -, rfl⟩ := hi <;> rfl
  · obtain ⟨rfl, -, rfl⟩ | ⟨rfl, -, rfl⟩ := hi <;> exact fun _ => rfl
  · exact hexec.trans (issue_ready hready _ _)
  · exact dismissesTo_afterD1 hu i

/-- Settles O60: D1 of any operation leaves the state a dismiss goes on from. -/
theorem runningDismissFollowsItsSteps : Obligations.RunningDismissFollowsItsSteps := by
  intro s f rest hu hframes hrun hpc
  have hr : runningAt s = some .d1 := runningAt_eq_some.mpr ⟨f, rest, hframes, hrun, hpc⟩
  have hstep : step s = .next { s with rxWaiting := false, frames := { f with pc := .d2 } :: rest } :=
    (step_at hu hr).trans (congrArg Host.Outcome.next (goto_eq_of_frames (s := { s with rxWaiting := false }) hframes .d2))
  refine ⟨hstep, dismissesTo_of_run (s := { s with frames := rest }) hu ((run_succ_of_next hstep).trans ?_)⟩
  obtain ⟨op, pc, upcall⟩ := f
  cases hrun
  rfl

end Sys2Proof.Machine
end

section
/-! Whole sends and RADIO_INIT with a chip that answers (41_radio.md, 95_test_vectors.md): an operation's frame, the interrupt
flag, the chip and the coming events are all that move until the operation returns. -/

namespace Sys2Proof.Machine

/-! ## A running operation -/

/-- Operation `op` at label `pc` on the stack of `s`, with the interrupt flag, the chip and the coming events as given. -/
def running (op : Instr) (pc : Pc) (en : Bool) (chip : Chip) (sched : List Event) (s : State) : State :=
  { s with frames := ⟨op, pc, none⟩ :: s.frames, irqEn := en, chip := chip, sched := sched }

/-- A state whose top frame runs is that operation, on the stack below it. -/
theorem eq_running {s : State} {f : Frame} {rest : List Frame} (h : s.frames = f :: rest) (hu : f.upcall = none) :
    s = running f.op f.pc s.irqEn s.chip s.sched { s with frames := rest } := by
  obtain ⟨op, pc, upcall⟩ := f
  cases hu
  cases s
  cases h
  rfl

section
variable {s : State} {op : Instr} {en : Bool} {chip : Chip} {rest : List Event} (hf : s.fault = none)
include hf

theorem step_running (pc : Pc) :
    step (running op pc en chip (.go :: rest) s) = execFetch (fetchStep pc (running op pc en chip rest s)) :=
  step_go_at rfl hf rfl

/-- With no event coming the block moves as well (log 2). -/
theorem step_running_alone (pc : Pc) :
    step (running op pc en chip [] s) = execFetch (fetchStep pc (running op pc en chip [] s)) :=
  step_at (s := running op pc en chip [] s) ⟨rfl, hf⟩ rfl

theorem step_running_chip (pc : Pc) (m : ChipMove) :
    step (running op pc en chip (.chip m :: rest) s) = .next (running op pc en (chipAfter chip m) rest s) :=
  (step_chip (s := running op pc en chip (.chip m :: rest) s) rfl hf).trans
    (congrArg Host.Outcome.next (chipMove_eq m (running op pc en chip rest s)))

/-! ## One `set_state` (R164) -/

/-- A chip that reports the target ends `set_state`. -/
theorem step_running_ss1_of_target {use : SetState} {target : Target} (ht : setStateTarget use = target)
    (hc : statusClass s.cfg chip.regs.status = targetClass target) :
    step (running op (.ss1 use) en chip (.go :: rest) s) = .next (running op (setStateNext use) en chip rest s) :=
  (step_running hf _).trans (stepSS1_of_target (s := running op (.ss1 use) en chip rest s) ht hc)

/-- A chip at rest elsewhere is given the target's command. -/
theorem step_running_ss1_of_resting {use : SetState} {target : Target} {c : StatusClass}
    (hc : statusClass s.cfg chip.regs.status = c) (hrest : c = .idle ∨ c = .listen ∨ c = .send)
    (ht : setStateTarget use = target) (hne : c ≠ targetClass target) :
    step (running op (.ss1 use) en chip (.go :: rest) s) =
      .next (running op (.ss2 use (cmdFor target)) en chip rest s) :=
  (step_running hf _).trans (stepSS1_of_resting (s := running op (.ss1 use) en chip rest s) hc hrest ht hne)

/-- SS2 gives the chip its command. -/
theorem step_running_ss2 (use : SetState) (cmd : ChipCmd) :
    step (running op (.ss2 use cmd) en chip (.go :: rest) s) =
      .next (running op (.ss1 use) en { chip with command := some (cmdCode s.cfg cmd) } rest s) :=
  step_running hf _

/-- The chip after the target's command, at the target. -/
def chipSet (p : Params) (target : Target) (code : Nat) (chip : Chip) : Chip :=
  chipAfter { chip with command := some (cmdCode p (cmdFor target)) } (.status code)

/-- From a chip at rest elsewhere, which reports the target one status read after the target's command. -/
theorem run_setState {use : SetState} {target : Target} {c : StatusClass} {code : Nat}
    (hc : statusClass s.cfg chip.regs.status = c) (hrest : c = .idle ∨ c = .listen ∨ c = .send)
    (ht : setStateTarget use = target) (hne : c ≠ targetClass target)
    (hcode : statusClass s.cfg code = targetClass target) :
    run 4 (running op (.ss1 use) en chip (.go :: .go :: .chip (.status code) :: .go :: rest) s) =
      .next (running op (setStateNext use) en (chipSet s.cfg target code chip) rest s) := by
  rw [run_succ_of_next (step_running_ss1_of_resting hf hc hrest ht hne), run_succ_of_next (step_running_ss2 hf ..),
    run_succ_of_next (step_running_chip hf ..), run_succ_of_next (step_running_ss1_of_target hf ht hcode), run_zero]
  rfl

end

/-! ## RADIO_INIT (R181) -/

/-- I1 clears both flags of the slot, under the frame of the operation it begins. -/
def slotCleared (s : State) : State := { s with rxWaiting := false, rxQueued := false }

theorem exec_radioInit_eq (s : State) :
    exec .radioInit s = .next (running .radioInit .i2 false (slotCleared s).chip s.sched (slotCleared s)) := rfl

/-- I2 pulses the chip's reset line. -/
theorem step_running_i2 {s : State} {op : Instr} {en : Bool} {rest : List Event} (hf : s.fault = none) :
    step (running op .i2 en s.chip (.go :: rest) s) =
      .next (running op (.ss1 .init) en (chipPulseReset s).chip rest (chipPulseReset s)) :=
  step_running hf _

/-- I4 returns with the radio ready and the interrupt enabled. -/
theorem step_running_i4 {s : State} {op : Instr} {en : Bool} {chip : Chip} {rest : List Event} (hf : s.fault = none) :
    step (running op .i4 en chip (.go :: rest) s) =
      .next { s with radioReady := true, irqEn := true, chip := chip, sched := rest, result := some .unit } :=
  step_running hf _

/-- Settles O17: I2 pulses the chip's reset line, the first status read of I3 is LISTEN, and I4 returns. -/
theorem radioInitCompletes : Obligations.RadioInitCompletes := by
  intro s c hf hlisten hs
  refine ⟨_, _, exec_radioInit_eq s, rfl, rfl, rfl, ?_, rfl⟩
  have hf' : (chipPulseReset (slotCleared s)).fault = none := hf
  have hc : statusClass s.cfg (chipAfter (chipPulseReset s).chip (.status c.listen)).regs.status = .listen := hlisten
  rw [hs]
  exact (run_succ_of_next (step_running_i2 (s := slotCleared s) hf)).trans <|
    (run_succ_of_next (step_running_chip hf' _ (.status c.listen))).trans <|
    (run_succ_of_next (step_running_ss1_of_target hf' (use := .init) (target := .listen) rfl hc)).trans <|
    run_succ_of_next (step_running_i4 hf')

/-! ## RADIO_PACKET_SEND (R167 to R173) -/

/-- The chip after the transmission: the frame in its buffer, one more trigger pulse, the status cleared, a TRAC code. -/
def chipSent (n : Nat) (frame : List Byte) (trac : Nat) (chip : Chip) : Chip :=
  { chip with
    regs := { chip.regs with irqStatus := 0, irqLine := false, trac := trac }
    buffer := .written (BitVec.ofNat 8 n) frame
    triggers := chip.triggers + 1 }

section
variable {s : State} {op : Instr} {en : Bool} {chip : Chip} {rest : List Event} {c : ChipCodes} {trac n : Nat}
  (hf : s.fault = none)
include hf

theorem step_running_t3 : step (running op (.t3 n) en chip (.go :: rest) s) =
    .next (running op (.t4 n) false chip rest s) :=
  step_running hf _

theorem step_running_t4 : step (running op (.t4 n) en chip (.go :: rest) s) =
    .next (running op .t5 en { chip with buffer := .written (BitVec.ofNat 8 n) (s.txBuf.slice 0 n) } rest s) :=
  step_running hf _

theorem step_running_t5 : step (running op .t5 en chip (.go :: rest) s) =
    .next (running op .t6 en { chip with triggers := chip.triggers + 1 } rest s) :=
  step_running hf _

theorem step_running_t6 : step (running op .t6 en chip (.go :: rest) s) =
    .next (running op (.t7 (nowMs s.cfg s.clock)) en chip rest s) :=
  step_running hf _

theorem step_running_t7_of_high {t0 : Nat} (h : chip.regs.irqLine = true) :
    step (running op (.t7 t0) en chip (.go :: rest) s) = .next (running op (.t8 t0) en chip rest s) :=
  (step_running hf _).trans (stepT7_of_high (s := running op (.t7 t0) en chip rest s) h)

theorem step_running_t8_of_done {t0 : Nat} (h : irqTxDone s.cfg chip.regs.irqStatus = true) :
    step (running op (.t8 t0) en chip (.go :: rest) s) =
      .next (running op (.t10 true) en { chip with regs := { chip.regs with irqStatus := 0, irqLine := false } } rest s) :=
  (step_running hf _).trans (stepT8_of_done (s := running op (.t8 t0) en chip rest s) h)

theorem step_running_t10 (done : Bool) : step (running op (.t10 done) en chip (.go :: rest) s) =
    .next (running op (.ss1 (.restore (done && chip.regs.trac == s.cfg.tracSuccess))) en chip rest s) :=
  step_running hf _

/-- T12 unmasks and returns, and TXBUF is undefined from there on (R173, R78). -/
theorem step_running_t12 (ok : Bool) : step (running op (.t12 ok) en chip (.go :: rest) s) =
    .next { s with
      irqEn := true, chip := chip, sched := rest, txBuf := Buffer.drawn s.draws, draws := s.draws + 1,
      result := some (.bool ok) } :=
  step_running hf _

/-- T3 to T10, with completion shown before the first round of the wait. -/
theorem run_transmission (hdone : irqTxDone s.cfg c.txDone = true) :
    run 10 (running op (.t3 n) en chip (.go :: .go :: .go :: .chip (.irqStatus c.txDone) :: .chip (.irqLine true) ::
        .chip (.trac trac) :: .go :: .go :: .go :: .go :: rest) s) =
      .next (running op (.ss1 (.restore (trac == s.cfg.tracSuccess))) false
        (chipSent n (s.txBuf.slice 0 n) trac chip) rest s) := by
  rw [run_succ_of_next (step_running_t3 hf), run_succ_of_next (step_running_t4 hf), run_succ_of_next (step_running_t5 hf),
    run_succ_of_next (step_running_chip hf ..), run_succ_of_next (step_running_chip hf ..),
    run_succ_of_next (step_running_chip hf ..), run_succ_of_next (step_running_t6 hf),
    run_succ_of_next (step_running_t7_of_high hf rfl), run_succ_of_next (step_running_t8_of_done hf hdone),
    run_succ_of_next (step_running_t10 hf true), run_zero]
  rfl

/-- A send from T2 with a well-behaved chip at LISTEN (95_test_vectors.md). -/
theorem run_transmit (hcodes : codesOk s.cfg c) (hlisten : statusClass s.cfg chip.regs.status = .listen) :
    run 19 (running op (.ss1 (.transmit n)) en chip (transmitScript c trac) s) =
      .next (transmitted c trac n (s.txBuf.slice 0 n) { s with chip := chip }) := by
  obtain ⟨hcl, hcs, hct⟩ := hcodes
  exact (run_add 4 15 _ _ (run_setState hf (target := .send) hlisten (.inr (.inl rfl)) rfl (by decide) hcs)).trans <|
    (run_add 10 5 _ _ (run_transmission hf hct)).trans <|
    (run_add 4 1 _ _ (run_setState hf (target := .listen) hcs (.inr (.inr rfl)) rfl (by decide) hcl)).trans <|
    run_succ_of_next (step_running_t12 hf _)

end

theorem stepT1_of_le {n : Nat} (h : n ≤ radioMtu) (s : State) : stepT1 n s = .next (goto (.ss1 (.transmit n)) s) :=
  if_neg (Nat.not_lt.mpr h)

/-- Settles O19: T1 lets the size through, and the rest is a transmission with a well-behaved chip. -/
theorem radioSendCompletes : Obligations.RadioSendCompletes := by
  intro s n c trac hready hf hn hcodes hlisten hs
  refine ⟨running (.radioPacketSend n) (.ss1 (.transmit n.toNat)) s.irqEn s.chip s.sched s, ?_, ?_⟩
  · exact (issue_ready hready _ _).trans (stepT1_of_le hn _)
  · rw [hs]
    exact run_transmit hf hcodes hlisten

/-! ## A send that timed out (R172 to R174) -/

/-- For `k` steps the machine goes on with the interrupt masked at every boundary. -/
def masksFor (k : Nat) (s : State) : Prop := ∀ j, j ≤ k → ∃ t, run j s = .next t ∧ t.irqEn = false

theorem masksFor_zero {s : State} (h : s.irqEn = false) : masksFor 0 s := fun j hj => by
  obtain rfl := Nat.le_zero.mp hj
  exact ⟨s, rfl, h⟩

theorem masksFor_succ {k : Nat} {s t : State} (h : s.irqEn = false) (hstep : step s = .next t) (ht : masksFor k t) :
    masksFor (k + 1) s := by
  intro j hj
  cases j with
  | zero => exact ⟨s, rfl, h⟩
  | succ j =>
    obtain ⟨u, hu, hen⟩ := ht j (Nat.le_of_succ_le_succ hj)
    exact ⟨u, (run_succ_of_next hstep).trans hu, hen⟩

/-- A `set_state` that begins masked stays masked. -/
theorem masksFor_setState {s : State} {op : Instr} {chip : Chip} {rest : List Event} {use : SetState} {target : Target}
    {c : StatusClass} {code k : Nat} (hf : s.fault = none) (hc : statusClass s.cfg chip.regs.status = c)
    (hrest : c = .idle ∨ c = .listen ∨ c = .send) (ht : setStateTarget use = target) (hne : c ≠ targetClass target)
    (hcode : statusClass s.cfg code = targetClass target)
    (h : masksFor k (running op (setStateNext use) false (chipSet s.cfg target code chip) rest s)) :
    masksFor (k + 4) (running op (.ss1 use) false chip (.go :: .go :: .chip (.status code) :: .go :: rest) s) :=
  masksFor_succ rfl (step_running_ss1_of_resting hf hc hrest ht hne) <|
  masksFor_succ rfl (step_running_ss2 hf ..) <|
  masksFor_succ rfl (step_running_chip hf ..) <|
  masksFor_succ rfl (step_running_ss1_of_target hf ht hcode) h

section
variable {s : State} {op : Instr} {chip : Chip} (hf : s.fault = none)
include hf

/-- With a chip at SEND that reports LISTEN one status read after CMD_LISTEN. -/
theorem timedOut_from_send {code : Nat} (hsend : statusClass s.cfg chip.regs.status = .send)
    (hcode : statusClass s.cfg code = .listen) :
    masksFor 5 (running op (.t10 false) false chip [.go, .go, .go, .chip (.status code), .go, .go] s) ∧
    run 5 (running op (.t10 false) false chip [.go, .go, .go, .chip (.status code), .go, .go] s) =
      .next (running op (.t12 false) false (chipSet s.cfg .listen code chip) [.go] s) :=
  ⟨masksFor_succ rfl (step_running_t10 hf false) <|
      masksFor_setState (use := .restore false) hf hsend (.inr (.inr rfl)) rfl (by decide) hcode (masksFor_zero rfl),
    (run_succ_of_next (step_running_t10 hf false)).trans <|
      run_setState (use := .restore false) hf hsend (.inr (.inr rfl)) rfl (by decide) hcode⟩

/-- With a chip at LISTEN, and no event coming. -/
theorem timedOut_from_listen (hlisten : statusClass s.cfg chip.regs.status = .listen) :
    masksFor 2 (running op (.t10 false) false chip [] s) ∧
    run 2 (running op (.t10 false) false chip [] s) = .next (running op (.t12 false) false chip [] s) := by
  have ht10 : step (running op (.t10 false) false chip [] s) = .next (running op (.ss1 (.restore false)) false chip [] s) :=
    step_running_alone hf _
  have hss1 : step (running op (.ss1 (.restore false)) false chip [] s) = .next (running op (.t12 false) false chip [] s) :=
    (step_running_alone hf _).trans (stepSS1_of_target (s := running op (.ss1 (.restore false)) false chip [] s)
      (target := .listen) rfl hlisten)
  exact ⟨masksFor_succ rfl ht10 (masksFor_succ rfl hss1 (masksFor_zero rfl)),
    (run_succ_of_next ht10).trans (run_succ_of_next hss1)⟩

end

/-- Settles O23: T10 restores with the result false, then SS1 finds LISTEN at once or one status read after CMD_LISTEN. -/
theorem timedOutSendAnswersFalse : Obligations.TimedOutSendAnswersFalse := by
  intro s hf hen hr
  obtain ⟨f, rest, hframes, hrun, hpc⟩ := runningAt_eq_some.mp hr
  have hs : ∀ sched, s.sched = sched →
      running f.op (.t10 false) false s.chip sched { s with frames := rest } = s := by
    rintro _ rfl
    rw [← hpc, ← hen]
    exact (eq_running hframes hrun).symm
  have hf' : ({ s with frames := rest } : State).fault = none := hf
  rw [hframes, List.tail_cons]
  refine ⟨fun code hsend hcode hsched => ?send, fun hlisten hsched => ?listen⟩
  case send =>
    obtain ⟨hmask, hrun5⟩ := timedOut_from_send (op := f.op) (chip := s.chip) hf' hsend hcode
    rw [hs _ hsched] at hmask hrun5
    refine ⟨hmask, ⟨_, hrun5, rfl, hcode, rfl⟩, ?_⟩
    exact (run_add 5 1 _ _ hrun5).trans (run_succ_of_next (step_running_t12 hf' false))
  case listen =>
    obtain ⟨hmask, hrun2⟩ := timedOut_from_listen (op := f.op) (chip := s.chip) hf' hlisten
    rw [hs _ hsched] at hmask hrun2
    refine ⟨hmask, ⟨_, hrun2, rfl, rfl⟩, ?_⟩
    exact (run_add 2 1 _ _ hrun2).trans (run_succ_of_next (step_running_alone hf' _))

end Sys2Proof.Machine
end

section
/-! Whole LINK and APP sends with a chip that answers (42_link.md, 43_protocol.md): the bytes TXBUF holds once both headers are
written, then the operations' own micro-steps before the radio's. -/

namespace Sys2Proof.Machine

/-! ## The frame in TXBUF (R108, R202, R244) -/

theorem Buffer.slice_two (b : Buffer) (off : Nat) : b.slice off 2 = bytes16 (b.getLE16 off) :=
  (bytes16_le16 _ _).symm

theorem Buffer.slice_one (b : Buffer) (off : Nat) : b.slice off 1 = [b.read off] := rfl

/-- What L2 leaves of the block's state but the label: header, trailer and sequence number (R201). -/
def encapsulated (n : Nat) (s : State) : State := putFrameControl (fcTx s.cfg.fcVersion) (linkEncapBody n s)

theorem encapsulated_txBuf (n : Nat) (s : State) :
    (encapsulated n s).txBuf = (beforeFcTx n s).txBuf.putLE16 0 (fcTx s.cfg.fcVersion) := rfl

theorem encapsulated_header (n : Nat) (s : State) : (encapsulated n s).txBuf.slice 0 9 =
    bytes16 (fcTx s.cfg.fcVersion) ++ [s.seq] ++ bytes16 s.panId ++ bytes16 s.dstAddr ++ bytes16 s.localAddr := by
  obtain ⟨hseq, hpan, hdst, hloc⟩ := beforeFcTx_header s n
  have hfields (b : Buffer) : b.slice 0 9 = b.slice 0 2 ++ b.slice 2 1 ++ b.slice 3 2 ++ b.slice 5 2 ++ b.slice 7 2 := rfl
  rw [encapsulated_txBuf, hfields]
  simp only [Buffer.slice_two, Buffer.slice_one, Buffer.getLE16_putLE16]
  simp (disch := omega) only [Buffer.getLE16_putLE16_of_disjoint, Buffer.read_putLE16_of_ne, hseq, hpan, hdst, hloc]

theorem encapsulated_payload (n : Nat) (s : State) : (encapsulated n s).txBuf.slice 9 n = s.txBuf.slice 9 n := by
  refine Buffer.slice_congr fun a h9 hn => ?_
  rw [encapsulated_txBuf, Buffer.read_putLE16_of_ne _ (by omega) (by omega),
    beforeFcTx_read_of_ne s n h9 (by omega) (by omega)]

theorem encapsulated_trailer (n : Nat) (s : State) : (encapsulated n s).txBuf.slice (9 + n) 2 = [0, 0] := by
  obtain ⟨h9, h10⟩ := beforeFcTx_trailer s n
  rw [encapsulated_txBuf, Buffer.slice, Buffer.slice, Buffer.slice, Buffer.read_putLE16_of_ne _ (by omega) (by omega),
    Buffer.read_putLE16_of_ne _ (by omega) (by omega), h9, show 9 + n + 1 = 10 + n by omega, h10]

/-- The frame L2 hands to the radio (R214). -/
theorem encapsulated_frame (n : Nat) (s : State) :
    (encapsulated n s).txBuf.slice 0 (n + 11) = linkFrame s (s.txBuf.slice 9 n) := by
  rw [show n + 11 = 9 + n + 2 by omega, Buffer.slice_add, Buffer.slice_add, Nat.zero_add, Nat.zero_add, encapsulated_header,
    encapsulated_payload, encapsulated_trailer]
  rfl

/-- The link payload A2 leaves: code, endpoint and the host's records (R244). -/
theorem putAppHeader_payload (cmd ep : Byte) (m : Nat) (s : State) :
    (putAppHeader cmd ep s).txBuf.slice 9 (2 + m) = cmd :: ep :: s.txBuf.slice 11 m := by
  have hbuf : (putAppHeader cmd ep s).txBuf = (s.txBuf.write 9 cmd).write 10 ep := rfl
  have hrecords : ((s.txBuf.write 9 cmd).write 10 ep).slice 11 m = s.txBuf.slice 11 m :=
    Buffer.slice_congr fun a h11 _ => by simp (disch := omega) only [Buffer.read_write_of_ne]
  rw [hbuf, Buffer.slice_add, hrecords]
  simp [Buffer.slice, Buffer.read_write]

/-! ## LINK_PACKET_SEND (R214) -/

section
variable {s : State} {op : Instr} {en : Bool} {chip : Chip} {rest : List Event} (hf : s.fault = none)
include hf

theorem step_running_t1 {n : Nat} (h : n ≤ radioMtu) :
    step (running op (.t1 n) en chip (.go :: rest) s) = .next (running op (.ss1 (.transmit n)) en chip rest s) :=
  (step_running hf _).trans (stepT1_of_le h _)

theorem step_running_l2 (n : Nat) :
    step (running op (.l2 n) en chip (.go :: rest) s) = .next (running op (.t1 (n + 11)) en chip rest (encapsulated n s)) :=
  step_running hf _

/-- From L2 with a well-behaved chip at LISTEN. -/
theorem run_linkSend {c : ChipCodes} {trac n : Nat} (hn : n ≤ linkMtu) (hcodes : codesOk s.cfg c)
    (hlisten : statusClass s.cfg chip.regs.status = .listen) :
    run 21 (running op (.l2 n) en chip (.go :: .go :: transmitScript c trac) s) =
      .next { transmitted c trac (n + 11) (linkFrame s (s.txBuf.slice 9 n)) { s with chip := chip } with
        seq := s.seq + 1 } := by
  have hf' : (encapsulated n s).fault = none := hf
  have hn' : n + 11 ≤ radioMtu := Nat.add_le_add_right hn 11
  rw [run_succ_of_next (step_running_l2 hf n), run_succ_of_next (step_running_t1 hf' hn'),
    run_transmit (s := encapsulated n s) hf' hcodes hlisten, encapsulated_frame]
  rfl

end

theorem stepL1_of_le {n : Nat} (h : n ≤ linkMtu) (s : State) : stepL1 n s = .next (goto (.l2 n) s) :=
  if_neg (Nat.not_lt.mpr h)

/-- Settles O30: L1 lets the size through, and L2 leaves the frame for the radio's send. -/
theorem linkSendCompletes : Obligations.LinkSendCompletes := by
  intro s n c trac hready hf hn hcodes hlisten hs
  refine ⟨running (.linkPacketSend n) (.l2 n.toNat) s.irqEn s.chip s.sched s, ?_, ?_⟩
  · exact (issue_ready hready _ _).trans (stepL1_of_le hn _)
  · rw [hs]
    exact run_linkSend hf hn hcodes hlisten

/-! ## The four APP sends (R254 to R256, R259, R260) -/

theorem stepA1_of_le {cmd : Byte} {n : Nat} (h : n ≤ maxCount cmd) (ep : Option Byte) (s : State) :
    stepA1 cmd ep n s = .next (goto (.a2 cmd ep n) s) :=
  if_neg (Nat.not_lt.mpr h)

section
variable {s : State} {op : Instr} {en : Bool} {chip : Chip} {rest : List Event} (hf : s.fault = none)
include hf

theorem step_running_l1 {n : Nat} (h : n ≤ linkMtu) :
    step (running op (.l1 n) en chip (.go :: rest) s) = .next (running op (.l2 n) en chip rest s) :=
  (step_running hf _).trans (stepL1_of_le h _)

theorem step_running_a2 (cmd : Byte) (ep : Option Byte) (count : Nat) :
    step (running op (.a2 cmd ep count) en chip (.go :: rest) s) =
      .next (running op (.l1 (2 + count * recSize cmd)) en chip rest (putAppHeader cmd (ep.getD s.dispatchEp) s)) :=
  step_running hf _

/-- From A2 with a well-behaved chip at LISTEN. -/
theorem run_appSend {c : ChipCodes} {trac count : Nat} {cmd : Byte} {ep : Option Byte}
    (hsize : 2 + count * recSize cmd ≤ linkMtu) (hcodes : codesOk s.cfg c) (hlisten : statusClass s.cfg chip.regs.status = .listen) :
    run 23 (running op (.a2 cmd ep count) en chip (.go :: .go :: .go :: .go :: transmitScript c trac) s) =
      .next { transmitted c trac (count * recSize cmd + 13)
        (linkFrame s (cmd :: ep.getD s.dispatchEp :: s.txBuf.slice 11 (count * recSize cmd))) { s with chip := chip } with
        seq := s.seq + 1 } := by
  have hf' : (putAppHeader cmd (ep.getD s.dispatchEp) s).fault = none := hf
  rw [run_succ_of_next (step_running_a2 hf ..), run_succ_of_next (step_running_l1 hf' hsize),
    run_linkSend hf' hsize hcodes hlisten, putAppHeader_payload,
    show 2 + count * recSize cmd + 11 = count * recSize cmd + 13 by omega]
  rfl

end

/-- Settles O35: each send is A1 with its code and its endpoint, and the rest is one run from A2. -/
theorem appSendsComplete : Obligations.AppSendsComplete := by
  intro s i cmd ep count size c trac hi hready hf hcount hcodes hlisten hs
  have hform : ∃ ep', exec i s = issue .app i (stepA1 cmd ep' count.toNat) s ∧ ep'.getD s.dispatchEp = ep ∧
      recSize cmd = size ∧ maxCount cmd = 19 ∧ size ≤ 6 := by
    obtain ⟨rfl, rfl, rfl⟩ | ⟨rfl, rfl, rfl⟩ | ⟨rfl, rfl, rfl, rfl⟩ | ⟨rfl, rfl, rfl, rfl⟩ := hi
    · exact ⟨some ep, rfl, rfl, rfl, rfl, by decide⟩
    · exact ⟨some ep, rfl, rfl, rfl, rfl, by decide⟩
    · exact ⟨none, rfl, rfl, rfl, rfl, by decide⟩
    · exact ⟨none, rfl, rfl, rfl, rfl, by decide⟩
  obtain ⟨ep', hexec, rfl, rfl, hmax, h6⟩ := hform
  have hsize : 2 + count.toNat * recSize cmd ≤ linkMtu := by
    have hle : count.toNat * recSize cmd ≤ 19 * 6 := Nat.mul_le_mul hcount h6
    change _ ≤ 116
    omega
  refine ⟨running i (.a2 cmd ep' count.toNat) s.irqEn s.chip s.sched s, ?_, ?_⟩
  · rw [hexec, issue_ready hready]
    exact stepA1_of_le (hmax ▸ hcount) _ _
  · rw [hs]
    exact run_appSend hf hsize hcodes hlisten

end Sys2Proof.Machine
end

section
/-! The poll (43_protocol.md §6): what U1 and U2 make of the frame in RXBUF, one entry of the slave walk in each of its cases,
and the walk over a whole registry, then the statements about them. -/

namespace Sys2Proof.Machine

/-! ## The frame waiting (R261) -/

/-- The poll at `pc`, on the stack of `s`. -/
def polling (pc : Pc) (s : State) : State := { s with frames := ⟨.appUpdate, pc, none⟩ :: s.frames }

theorem stepU1_of_empty {s : State} (h : s.rxWaiting = false) : stepU1 s = .next (finish .unit s) := by
  simp only [stepU1, h, cond_false]

theorem stepU1_of_waiting {s : State} (h : s.rxWaiting = true) : stepU1 s = .next (goto .u2 s) := by
  simp only [stepU1, h, cond_true]

theorem exec_appUpdate_of_waiting {s : State} (hready : isReady s .app = true) (hw : s.rxWaiting = true) :
    exec .appUpdate s = .next (polling .u2 s) :=
  (issue_ready hready _ _).trans (stepU1_of_waiting (s := push .appUpdate s) hw)

theorem fetchFrame_of_rejected {s : State} (h : rxFilter s = none) : fetchFrame s = .done (.next (goto .d1 s)) := by
  simp only [fetchFrame, h]

/-- The filter's answer is the accepted frame-control pattern (R111). -/
theorem rxFilter_eq_some {s : State} {i : Instr} (h : rxFilter s = some i) : ∃ p a r v, i = .linkFcFilter p a r v := by
  unfold rxFilter decodeFcRx at h
  split at h
  · cases h
  · split at h
    · cases h; exact ⟨_, _, _, _, rfl⟩
    · cases h

theorem execFetch_fetchFrame_of_not_app {s : State} (hf : rxFilter s ≠ none)
    (hd : decodeApp (s.rxBuf.slice rxLinkOff (rxPayloadSize s)) = none) :
    execFetch (fetchFrame s) = .next (acceptFrame (goto .d1 s)) := by
  obtain ⟨i, hi⟩ := Option.ne_none_iff_exists'.mp hf
  obtain ⟨p, a, r, v, rfl⟩ := rxFilter_eq_some hi
  simp only [fetchFrame, hi, hd]
  rfl

/-- A poll that U2 sends to D1 is past D1 after one more step. -/
theorem run_dropped {s u : State} (hu : undisturbed s) (hs : undisturbed u)
    (h : execFetch (fetchFrame (polling .u2 s)) = .next (polling .d1 u)) :
    run 2 (polling .u2 s) = .next (afterD1 .appUpdate u) := by
  have hstep : step (polling .u2 s) = .next (polling .d1 u) := (step_u2 (s := polling .u2 s) hu rfl).trans h
  rw [run_succ_of_next hstep]
  exact run_at (s := polling .d1 u) hs rfl rfl

/-- Settles O36: U1 returns without a frame; U2 goes to D1 with the frame rejected, or accepted at LINK only. -/
theorem updateWithoutUpcallCompletes : Obligations.UpdateWithoutUpcallCompletes := by
  refine fun s => ⟨fun hw => ?empty, fun hu hready hw => ⟨fun hf => ?rejected, fun hf hd => ?accepted⟩⟩
  case empty => exact issue_answers (execAppUpdate.eq_def s) (stepU1_of_empty (s := push _ s) hw)
  case rejected =>
    refine ⟨_, exec_appUpdate_of_waiting hready hw, dismissesTo_of_run hu (run_dropped hu hu ?_)⟩
    rw [fetchFrame_of_rejected (s := polling .u2 s) hf]
    rfl
  case accepted =>
    refine ⟨_, exec_appUpdate_of_waiting hready hw, dismissesTo_of_run (s := acceptFrame s) hu (run_dropped hu hu ?_)⟩
    rw [execFetch_fetchFrame_of_not_app (s := polling .u2 s) hf hd]
    rfl

/-! ## One entry of the walk (R263) -/

theorem isCalled_iff {kind : SlaveKind} {ep : Byte} {h : Handler} :
    isCalled kind ep h = true ↔ h.ep = ep ∧ hasCallback h kind = true := by
  simp [isCalled]

section
variable {s : State} {kind : SlaveKind} {i count : Nat} {ep : Byte} {h : Handler}

theorem stepSD1_of_end (hi : s.handlers.length ≤ i) : stepSD1 kind i ep count s = .next (goto .d1 s) := by
  simp only [stepSD1, List.getElem?_eq_none hi]

theorem stepSD1_of_not_called (hi : s.handlers[i]? = some h) (hc : isCalled kind ep h = false) :
    stepSD1 kind i ep count s = .next (goto (.sd2 kind i ep count) s) := by
  simp only [stepSD1, hi, ← isCalled_iff, hc, Bool.false_eq_true, if_false]

theorem stepSD1_of_called (hi : s.handlers[i]? = some h) (hc : isCalled kind ep h = true) :
    stepSD1 kind i ep count s =
      upcall (upcallRecord (.slave kind) (some i) ep count) (.sd2 kind i ep count) s { s with dispatchEp := ep } := by
  simp only [stepSD1, hi, ← isCalled_iff, hc, if_true]

end

/-- Settles O39: the meaning of a received command is the walk's start, and SD1 has one equation for each case of its
entry. -/
theorem slaveDispatchFollowsTheWalk : Obligations.SlaveDispatchFollowsTheWalk := by
  intro s ep
  refine ⟨fun _ => rfl, fun _ => rfl, fun f rest kind i count hu hframes hrun => ⟨fun hpc => ?sd1, fun hpc => ?sd2⟩⟩
  case sd1 =>
    have hstep : step s = stepSD1 kind i ep count s :=
      step_at hu (runningAt_eq_some.mpr ⟨f, rest, hframes, hrun, hpc⟩)
    rw [hstep]
    refine ⟨fun hi => ?_, fun h hi => ⟨fun hc => ?_, fun hc hfull => ?_, fun hc hroom => ?_⟩⟩
    · rw [stepSD1_of_end hi, goto_eq_of_frames hframes]
    · rw [stepSD1_of_not_called hi hc, goto_eq_of_frames hframes]
    · rw [stepSD1_of_called hi hc, upcall_of_full hfull]
    · rw [stepSD1_of_called hi hc, upcall_of_room hroom, suspend_of_frames (s := { s with dispatchEp := ep }) hframes]
      rfl
  case sd2 =>
    rw [step_at hu (runningAt_eq_some.mpr ⟨f, rest, hframes, hrun, hpc⟩), ← goto_eq_of_frames hframes]
    rfl

/-! ## The walk up to the first match (R263) -/

section
variable {s : State} {kind : SlaveKind} {ep : Byte} {count : Nat}

/-- An entry that is not called costs two steps. -/
theorem run_skip {i : Nat} {h : Handler} (hu : undisturbed s) (hr : runningAt s = some (.sd1 kind i ep count))
    (hi : s.handlers[i]? = some h) (hc : isCalled kind ep h = false) :
    run 2 s = .next (goto (.sd1 kind (i + 1) ep count) s) := by
  rw [run_at hu hr (stepSD1_of_not_called hi hc), run_at (s := goto _ s) hu (runningAt_goto hr) rfl, run_zero, goto_goto]

theorem run_skips (hu : undisturbed s) (hr : runningAt s = some (.sd1 kind 0 ep count)) {k : Nat}
    (hskip : ∀ j, j < k → ∃ h, s.handlers[j]? = some h ∧ isCalled kind ep h = false) :
    run (2 * k) s = .next (goto (.sd1 kind k ep count) s) := by
  induction k with
  | zero => rw [goto_self hr]; rfl
  | succ k ih =>
    obtain ⟨h, hi, hc⟩ := hskip k (Nat.lt_succ_self k)
    rw [show 2 * (k + 1) = 2 * k + 2 by omega, run_add _ 2 _ _ (ih fun j hj => hskip j (Nat.lt_succ_of_lt hj)),
      run_skip (s := goto _ s) hu (runningAt_goto hr) hi hc, goto_goto]

end

theorem outstanding_goto (pc : Pc) (s : State) : outstanding (goto pc s) = outstanding s := by
  unfold outstanding goto
  cases s.frames <;> rfl

theorem outstanding_polling (pc : Pc) (s : State) : outstanding (polling pc s) = outstanding s :=
  outstanding_cons (s := polling pc s) rfl

/-- A received command leaves U2 for the first entry, with its source address cached. -/
theorem step_polling_command {s : State} {i : Instr} {kind : SlaveKind} {ep : Byte} {count : Nat}
    (hi : (∃ records, i = .readCmd ep records ∧ kind = .read ∧ count = records.length) ∨
      ∃ records, i = .writeCmd ep records ∧ kind = .write ∧ count = records.length)
    (hu : undisturbed s) (hf : (rxFilter s).isSome = true)
    (hd : decodeApp (s.rxBuf.slice rxLinkOff (rxPayloadSize s)) = some i) :
    step (polling .u2 s) = .next (polling (.sd1 kind 0 ep count) (acceptFrame s)) := by
  rw [step_u2 (s := polling .u2 s) hu rfl, fetchFrame_of_decoded (s := polling .u2 s) hf hd]
  obtain ⟨records, rfl, rfl, rfl⟩ | ⟨records, rfl, rfl, rfl⟩ := hi <;> rfl

/-- Settles O37: U2, two steps for each entry before the match, and the match's upcall. -/
theorem updatePresentsSlaveUpcall : Obligations.UpdatePresentsSlaveUpcall := by
  intro s i kind ep count before after h hi hu hready hw hf hd hhandlers hbefore hcalled hroom
  have hskip : ∀ j, j < before.length → ∃ e, s.handlers[j]? = some e ∧ isCalled kind ep e = false := fun j hj =>
    ⟨before[j], by rw [hhandlers, List.getElem?_append_left hj, List.getElem?_eq_getElem hj],
      hbefore _ (List.getElem_mem hj)⟩
  have hmatch : s.handlers[before.length]? = some h := by simp [hhandlers]
  have hwalk := run_skips (s := polling (.sd1 kind 0 ep count) (acceptFrame s)) hu rfl hskip
  have hpoll := step_polling_command hi hu hf hd
  have hcall : step (polling (.sd1 kind before.length ep count) (acceptFrame s)) = upcall _ _ _ _ :=
    (step_at (s := polling (.sd1 kind before.length ep count) (acceptFrame s)) hu rfl).trans
      (stepSD1_of_called (s := polling _ _) hmatch hcalled)
  refine ⟨_, exec_appUpdate_of_waiting hready hw, ?_⟩
  rw [show 2 * before.length + 2 = (2 * before.length + 1) + 1 by omega, run_succ_of_next hpoll, run_add _ 1 _ _ hwalk]
  exact run_succ_of_next (hcall.trans (upcall_of_room (by rw [outstanding_polling]; exact hroom)))

/-! ## The whole walk (R265) -/

/-- In `k` steps from `s` the block presents exactly these upcalls, and it ends at the dismiss. -/
def walksTo (calls : List Upcall) (k : Nat) (s : State) : Prop :=
  upcallsIn k s = calls ∧ ∃ t, run k s = .next t ∧ runningAt t = some .d1

section
variable {s t : State} {calls : List Upcall} {k : Nat}

theorem upcallsIn_succ (h : step s = .next t) : upcallsIn (k + 1) s =
    (if (runningAt s).isSome then (t.frames.head?.bind Frame.upcall).toList else []) ++ upcallsIn k t := by
  simp only [upcallsIn, h]

theorem walksTo_zero (h : runningAt s = some .d1) : walksTo [] 0 s := ⟨rfl, s, rfl, h⟩

/-- A step that leaves its frame running presents nothing. -/
theorem walksTo_of_running {pc : Pc} (h : step s = .next t) (ht : runningAt t = some pc) (hw : walksTo calls k t) :
    walksTo calls (k + 1) s := by
  obtain ⟨f, rest, hf, hu, -⟩ := runningAt_eq_some.mp ht
  obtain ⟨hcalls, hrun⟩ := hw
  refine ⟨?_, by rwa [run_succ_of_next h]⟩
  rw [upcallsIn_succ h, hf, hcalls]
  simp [hu]

/-- A step of the host presents nothing. -/
theorem walksTo_of_suspended (h : step s = .next t) (hs : runningAt s = none) (hw : walksTo calls k t) :
    walksTo calls (k + 1) s := by
  obtain ⟨hcalls, hrun⟩ := hw
  refine ⟨?_, by rwa [run_succ_of_next h]⟩
  rw [upcallsIn_succ h, hs, hcalls]
  rfl

/-- A step that suspends the running frame presents its record. -/
theorem walksTo_of_call {pc : Pc} {u : Upcall} {f : Frame} {rest : List Frame} (h : step s = .next t)
    (hs : runningAt s = some pc) (hf : t.frames = f :: rest) (hu : f.upcall = some u) (hw : walksTo calls k t) :
    walksTo (u :: calls) (k + 1) s := by
  obtain ⟨hcalls, hrun⟩ := hw
  refine ⟨?_, by rwa [run_succ_of_next h]⟩
  rw [upcallsIn_succ h, hs, hf, hcalls]
  simp [hu]

end

section
variable {s : State} {kind : SlaveKind} {ep : Byte} {count i : Nat} {h : Handler}

theorem walksTo_of_end (hu : undisturbed s) (hr : runningAt s = some (.sd1 kind i ep count))
    (hi : s.handlers.length ≤ i) : walksTo [] 1 s :=
  walksTo_of_running ((step_at hu hr).trans (stepSD1_of_end hi)) (runningAt_goto hr) (walksTo_zero (runningAt_goto hr))

theorem walksTo_of_skip {calls : List Upcall} {k : Nat} (hu : undisturbed s)
    (hr : runningAt s = some (.sd1 kind i ep count)) (hi : s.handlers[i]? = some h) (hc : isCalled kind ep h = false)
    (hw : walksTo calls k (goto (.sd1 kind (i + 1) ep count) s)) : walksTo calls (k + 2) s := by
  have hsd2 : step (goto (.sd2 kind i ep count) s) = .next (goto (.sd1 kind (i + 1) ep count) s) :=
    (step_at (s := goto _ s) hu (runningAt_goto hr)).trans (congrArg Host.Outcome.next (goto_goto s _ _))
  exact walksTo_of_running ((step_at hu hr).trans (stepSD1_of_not_called hi hc)) (runningAt_goto hr) <|
    walksTo_of_running hsd2 (runningAt_goto hr) hw

/-- The state the walk goes on from after an upcall the host has returned from. -/
def afterCall (ep : Byte) (port : List Byte) (s : State) : State :=
  { s with dispatchEp := ep, port := port, result := some .unit }

/-- The host's UPCALL_RETURN sends the suspended walk on, the frame as it was but for its label (R151). -/
theorem step_host_returns {f : Frame} {rest : List Frame} {u : Upcall} {pc : Pc} {port : List Byte} (hu : undisturbed s)
    (hf : s.frames = f :: rest) (hrun : f.upcall = none) (hport : s.port = 0x3F :: port) :
    step (suspend u pc { s with dispatchEp := ep }) = .next (goto pc (afterCall ep port s)) := by
  rw [suspend_of_frames (s := { s with dispatchEp := ep }) hf]
  have hd : decodeHost s.port = .ok .upcallReturn port := hport ▸ rfl
  refine (step_of_decoded (s := { s with dispatchEp := ep, frames := { f with pc := pc, upcall := some u } :: rest })
    hu rfl hd).trans ((exec_upcallReturn_of_suspended rfl (Option.some_ne_none u)).trans ?_)
  rw [goto_eq_of_frames (s := afterCall ep port s) hf, hrun]
  rfl

theorem walksTo_of_match {calls : List Upcall} {k : Nat} {port : List Byte} (hu : undisturbed s)
    (hr : runningAt s = some (.sd1 kind i ep count)) (hi : s.handlers[i]? = some h) (hc : isCalled kind ep h = true)
    (hroom : outstanding s ≠ maxUpcallDepth s.cfg) (hport : s.port = 0x3F :: port)
    (hw : walksTo calls k (goto (.sd1 kind (i + 1) ep count) (afterCall ep port s))) :
    walksTo (upcallRecord (.slave kind) (some i) ep count :: calls) (k + 3) s := by
  obtain ⟨f, rest, hf, hrun, -⟩ := runningAt_eq_some.mp hr
  have hcall : step s = .next (suspend (upcallRecord (.slave kind) (some i) ep count) (.sd2 kind i ep count)
      { s with dispatchEp := ep }) :=
    (step_at hu hr).trans ((stepSD1_of_called hi hc).trans (upcall_of_room hroom))
  have hr' : runningAt (afterCall ep port s) = some (.sd1 kind i ep count) := hr
  have hsd2 : step (goto (.sd2 kind i ep count) (afterCall ep port s)) =
      .next (goto (.sd1 kind (i + 1) ep count) (afterCall ep port s)) :=
    (step_at (s := goto (.sd2 kind i ep count) (afterCall ep port s)) hu (runningAt_goto hr')).trans
      (congrArg Host.Outcome.next (goto_goto _ _ _))
  have hsuspended := congrArg State.frames (suspend_of_frames (s := { s with dispatchEp := ep }) hf
    (upcallRecord (.slave kind) (some i) ep count) (.sd2 kind i ep count))
  exact walksTo_of_call hcall hr hsuspended rfl <|
    walksTo_of_suspended (step_host_returns hu hf hrun hport) runningAt_suspend <|
    walksTo_of_running hsd2 (runningAt_goto hr') hw

end

/-- From entry `i` on, with the rest of the registry ahead. -/
theorem walksTo_slaveUpcalls {kind : SlaveKind} {ep : Byte} {count : Nat} (ahead : List Handler) :
    ∀ (i : Nat) (s : State), undisturbed s → runningAt s = some (.sd1 kind i ep count) → s.handlers.drop i = ahead →
    outstanding s < maxUpcallDepth s.cfg →
    s.port = List.replicate (slaveUpcalls kind ep count i ahead).length 0x3F →
    walksTo (slaveUpcalls kind ep count i ahead)
      (2 * ahead.length + (slaveUpcalls kind ep count i ahead).length + 1) s := by
  induction ahead with
  | nil =>
    intro i s hu hr hdrop _ _
    exact walksTo_of_end hu hr (List.drop_eq_nil_iff.mp hdrop)
  | cons h ahead ih =>
    intro i s hu hr hdrop hroom hport
    have hi : s.handlers[i]? = some h := by rw [← Nat.add_zero i, ← List.getElem?_drop, hdrop]; rfl
    have hnext : s.handlers.drop (i + 1) = ahead := by rw [← List.tail_drop, hdrop, List.tail_cons]
    have hroom' : ∀ {u : State}, u.frames = s.frames → u.cfg = s.cfg →
        outstanding (goto (.sd1 kind (i + 1) ep count) u) < maxUpcallDepth u.cfg := fun hframes hcfg => by
      rw [outstanding_goto, outstanding, hframes, hcfg]; exact hroom
    cases hc : isCalled kind ep h with
    | false =>
      have hcalls : slaveUpcalls kind ep count i (h :: ahead) = slaveUpcalls kind ep count (i + 1) ahead := by
        simp [slaveUpcalls, hc]
      rw [hcalls] at hport ⊢
      have hw := walksTo_of_skip hu hr hi hc (ih (i + 1) _ hu (runningAt_goto hr) hnext (hroom' rfl rfl) hport)
      convert hw using 1
      rw [List.length_cons]
      omega
    | true =>
      have hcalls : slaveUpcalls kind ep count i (h :: ahead) =
          upcallRecord (.slave kind) (some i) ep count :: slaveUpcalls kind ep count (i + 1) ahead := by
        simp [slaveUpcalls, hc]
      rw [hcalls] at hport ⊢
      have hw := walksTo_of_match hu hr hi hc hroom.ne hport
        (ih (i + 1) (goto _ (afterCall ep _ s)) hu (runningAt_goto (s := afterCall ep _ s) hr) hnext (hroom' rfl rfl) rfl)
      convert hw using 1
      rw [List.length_cons, List.length_cons]
      omega

/-- Settles O41: by induction on the entries ahead, each of which is skipped, or called and returned from. -/
theorem slaveWalkCallsEveryMatch : Obligations.SlaveWalkCallsEveryMatch := by
  intro s f rest kind ep count hu hframes hrun hpc hroom calls hport
  exact walksTo_slaveUpcalls s.handlers 0 s hu (runningAt_eq_some.mpr ⟨f, rest, hframes, hrun, hpc⟩) rfl hroom hport

end Sys2Proof.Machine
end
